-- ==== Sys2Proof/Word.lean ====
section
/-! DEFINITION. The bit-vector types of the controller: words, bytes, bus and device ids. -/

namespace Sys2Proof

/-- A command or event word (30_encoding.md R70). -/
abbrev Word := BitVec 32

/-- One byte: a register selector, a payload, a received byte (00_scope.md R8). -/
abbrev Byte := BitVec 8

/-- One bit: a sampled flag value, `START`, `OVERCLOCK[b]`, `RSP_OK`. -/
abbrev Bit := BitVec 1

/-- A device id, 4 bits (30_encoding.md R71 field `DEV`). -/
abbrev DevId := BitVec 4

/-- A bus id, 4 bits (30_encoding.md R78 field `BUS`). -/
abbrev BusId := BitVec 4

/-- A target address as the caller supplies it, 7 bits and unshifted (30_encoding.md R71). -/
abbrev Addr7 := BitVec 7

end Sys2Proof
end

