-- ==== Sys2Proof/Syntax.lean ====
section
/-! DEFINITION. The twelve rows of spec/opcode_table.json, six command words and six event words, and
the reasons a word or a command is turned away. -/

namespace Sys2Proof

/-- `END`, bits [23:22] of BEGIN (30_encoding.md R82); code 3 is reserved. -/
inductive EndMode where
  | reload
  | autoEnd
  | softEnd
  deriving DecidableEq, Repr

/-- `DIR`, bit [20] of BEGIN (30_encoding.md R82). -/
inductive Dir where
  | w
  | r
  deriving DecidableEq, Repr

/-- The six status flags (00_scope.md R14), `FLAG` codes 0 to 5 of SAMPLE (30_encoding.md R82). -/
inductive Flag where
  | busBusy
  | txReady
  | tcReload
  | tc
  | stop
  | rxReady
  deriving DecidableEq, Repr

/-- The reasons of `refuse` (60_exceptions.md R214), in the order of its table. -/
inductive RefuseReason where
  /-- REF_RESERVED_OP -/
  | reservedOp
  /-- REF_RESERVED_FIELD -/
  | reservedField
  /-- REF_BUSY -/
  | busy
  /-- REF_UNKNOWN_DEVICE -/
  | unknownDevice
  /-- REF_BUS_UNINIT -/
  | busUninit
  /-- REF_ZERO_LENGTH -/
  | zeroLength
  /-- REF_BUFFER -/
  | buffer
  deriving DecidableEq, Repr

/-- Why a 32-bit word is no event word (30_encoding.md R79, R82). -/
inductive EventError where
  /-- `KIND` is reserved. -/
  | reservedKind
  /-- A payload bit that the kind does not name is not 0. -/
  | reservedPayload
  /-- `END` = 3 or `FLAG` in 6 to 15. -/
  | reservedEnum
  deriving DecidableEq, Repr

/-- Why a 32-bit word is neither a command word nor an event word. -/
inductive DecodeError where
  | command (r : RefuseReason)
  | event (e : EventError)
  deriving DecidableEq, Repr

/-- One constructor for each row of the opcode table: format C (30_encoding.md R71, R72), then
format E (R78, R79). -/
inductive Instr where
  /-- `INIT DEV` (44_registry_diag.md R191). -/
  | init (dev : DevId)
  /-- `WRITE DEV, ADDR7, REG, DATA` (42_write.md R140). -/
  | write (dev : DevId) (addr7 : Addr7) (reg data : Byte)
  /-- `WRITEC ADDR7, REG, DATA` (42_write.md R141). -/
  | writec (addr7 : Addr7) (reg data : Byte)
  /-- `READ DEV, ADDR7, REG, LEN`; `BUF` and `CAP` are side operands outside the word (43_read.md R160). -/
  | read (dev : DevId) (addr7 : Addr7) (reg len : Byte)
  /-- `READC ADDR7, REG, LEN` (43_read.md R161). -/
  | readc (addr7 : Addr7) (reg len : Byte)
  /-- `GETERR` (44_registry_diag.md R195). -/
  | geterr
  /-- `BEGIN` (41_bus_interface.md R121). -/
  | begin (bus : BusId) (endMode : EndMode) (start : Bit) (dir : Dir) (nbytes saddr : Byte)
  /-- `TX` (41_bus_interface.md R123). -/
  | tx (bus : BusId) (byte : Byte)
  /-- `RX`, with the byte that was drawn (41_bus_interface.md R124). -/
  | rx (bus : BusId) (byte : Byte)
  /-- `CLRSTOP` (41_bus_interface.md R125). -/
  | clrstop (bus : BusId)
  /-- `SAMPLE`, with the value that was drawn (41_bus_interface.md R120). -/
  | sample (bus : BusId) (flag : Flag) (value : Bit)
  /-- `CONFIG` (44_registry_diag.md R193). -/
  | config (bus : BusId) (overclock : Bit)
  deriving DecidableEq, Repr

/-- The command words, format C (30_encoding.md R72). -/
def Instr.isCommand : Instr → Bool
  | .init _ => true
  | .write _ _ _ _ => true
  | .writec _ _ _ => true
  | .read _ _ _ _ => true
  | .readc _ _ _ => true
  | .geterr => true
  | .begin _ _ _ _ _ _ => false
  | .tx _ _ => false
  | .rx _ _ => false
  | .clrstop _ => false
  | .sample _ _ _ => false
  | .config _ _ => false

/-- The command starts a transaction. -/
def Instr.isTransaction : Instr → Bool
  | .init _ => false
  | .write _ _ _ _ => true
  | .writec _ _ _ => true
  | .read _ _ _ _ => true
  | .readc _ _ _ => true
  | .geterr => false
  | .begin _ _ _ _ _ _ => false
  | .tx _ _ => false
  | .rx _ _ => false
  | .clrstop _ => false
  | .sample _ _ _ => false
  | .config _ _ => false

/-- The length of a read command. -/
def Instr.readLength : Instr → Option Byte
  | .init _ => none
  | .write _ _ _ _ => none
  | .writec _ _ _ => none
  | .read _ _ _ l => some l
  | .readc _ _ l => some l
  | .geterr => none
  | .begin _ _ _ _ _ _ => none
  | .tx _ _ => none
  | .rx _ _ => none
  | .clrstop _ => none
  | .sample _ _ _ => none
  | .config _ _ => none

end Sys2Proof
end

