-- ==== Sys2Proof/Config.lean ====
section
/-! DEFINITION. The parameters of the controller (00_scope.md R7), the reference configuration of
95_test_vectors.md section 0, and the free values the bus answers with. -/

namespace Sys2Proof

/-- `READ_SETUP_BUDGET` is one of the two budgets (00_scope.md R7; 92_eei_decisions.md D7). -/
inductive SetupBudget where
  | short
  | long
  deriving DecidableEq, Repr

/-- `ZERO_LEN_POLICY` (43_read.md R172). -/
inductive ZeroLenPolicy where
  | refuse
  | source
  deriving DecidableEq, Repr

/-- Which budget a wait is armed with (30_encoding.md R80, column "budget"). -/
inductive Budget where
  | short
  | long
  | readSetup
  deriving DecidableEq, Repr

/-- The parameters "fixed before reset" (10_state.md R35). DESIGN CHOICE (log entry 1): the machine carries
them as constant data, so that a statement about every state is a statement about every configuration.
`NUM_DEVICES` and `NUM_BUSES` are the lengths of the two tables. `CALLERS` is `0 .. callers - 1`. -/
structure Params where
  /-- `SHORT_BUDGET` (40_timer.md R108). -/
  shortBudget : Nat
  /-- Which budget `READ_SETUP_BUDGET` is. -/
  readSetup : SetupBudget
  /-- `ERR_WIDTH` (10_state.md R22). -/
  errWidth : Nat
  /-- `DEVMAP`: entry `d` is the bus of device `d` (44_registry_diag.md R190). -/
  devmap : List BusId
  /-- `OVERCLOCK[b]` for each bus `b` (10_state.md R35). -/
  overclock : List Bit
  /-- `TIMING_STANDARD` (10_state.md R25). -/
  timingStandard : Nat
  /-- `TIMING_OVERCLOCK` (10_state.md R25). -/
  timingOverclock : Nat
  /-- `PROFILE_WIDTH` (00_scope.md R7). -/
  profileWidth : Nat
  /-- `ADDR_WIDTH` (20_memory.md R51). -/
  addrWidth : Nat
  /-- `ZERO_LEN_POLICY` (43_read.md R172). -/
  zeroLenPolicy : ZeroLenPolicy
  /-- The number of caller contexts in `CALLERS` (60_exceptions.md R220). -/
  callers : Nat
  deriving DecidableEq, Repr

/-- `NUM_DEVICES` (00_scope.md R7). -/
abbrev Params.numDevices (p : Params) : Nat := p.devmap.length

/-- `NUM_BUSES` (00_scope.md R7). -/
abbrev Params.numBuses (p : Params) : Nat := p.overclock.length

/-- `LONG_BUDGET = 10 * SHORT_BUDGET` (40_timer.md R108). -/
abbrev Params.longBudget (p : Params) : Nat := 10 * p.shortBudget

/-- `READ_SETUP_BUDGET` (00_scope.md R7). -/
abbrev Params.readSetupBudget (p : Params) : Nat :=
  match p.readSetup with
  | .short => p.shortBudget
  | .long => p.longBudget

/-- The reference configuration of 95_test_vectors.md section 0. DESIGN CHOICE (log entry 1): that section
gives no profile values, and the three here are the model's; no rule reads them. -/
def Params.reference : Params where
  shortBudget := 2
  readSetup := .long
  errWidth := 8
  devmap := [0, 1]
  overclock := [0, 1]
  timingStandard := 1
  timingOverclock := 2
  profileWidth := 2
  addrWidth := 16
  zeroLenPolicy := .refuse
  callers := 2

/-- FREE VALUE (log entry 4): what a bus answers to the `n`-th unscripted draw when a status flag is sampled
(41_bus_interface.md R120, R127: "unconstrained draws"). -/
opaque Config.busSample : Nat → Bit

/-- FREE VALUE (log entry 4): what a bus answers to the `n`-th unscripted draw when a byte is received
(41_bus_interface.md R124, R127). -/
opaque Config.busByte : Nat → Byte

end Sys2Proof
end

