-- ==== Sys2Proof/WellFormed.lean ====
section
/-! DEFINITION. The checks the spec puts on a configuration (00_scope.md R7) and on the words the
controller emits (41_bus_interface.md R121, R122). -/

namespace Sys2Proof

/-- The four uses of BEGIN (41_bus_interface.md R121): W_ADDR, W_DATACFG, R_ADDR and R_READCFG. -/
def beginUse (endMode : EndMode) (start : Bit) (dir : Dir) (nbytes : Byte) : Bool :=
  match endMode, dir with
  | .reload, .w => start == 1 && nbytes == 1
  | .autoEnd, .w => start == 0 && nbytes == 1
  | .softEnd, .w => start == 1 && nbytes == 1
  | .autoEnd, .r => start == 1
  | .reload, .r => false
  | .softEnd, .r => false

/-- Bit 0 of the bus address byte is always 0 (30_encoding.md R74; 41_bus_interface.md R122). -/
def evenSaddr (saddr : Byte) : Bool := saddr.getLsbD 0 == false

/-- An instruction the spec's agents produce. Every field value of a command is legal as a word
(30_encoding.md R74, R75: what is checked of a command beyond its word is checked at acceptance); a BEGIN is one
of the four uses and carries an even address byte. -/
def Instr.wf : Instr → Bool
  | .init _ => true
  | .write _ _ _ _ => true
  | .writec _ _ _ => true
  | .read _ _ _ _ => true
  | .readc _ _ _ => true
  | .geterr => true
  | .begin _ e st d n sa => beginUse e st d n && evenSaddr sa
  | .tx _ _ => true
  | .rx _ _ => true
  | .clrstop _ => true
  | .sample _ _ _ => true
  | .config _ _ => true

/-- A configuration within the ranges of 00_scope.md R7: budgets at least 1, `ERR_WIDTH` at least 1, 1 to 16
devices and buses, `DEVMAP` into the buses, profiles within `PROFILE_WIDTH`, at least one caller. -/
def Params.wf (p : Params) : Bool :=
  decide (1 ≤ p.shortBudget) && decide (1 ≤ p.errWidth) &&
  decide (1 ≤ p.numDevices) && decide (p.numDevices ≤ 16) &&
  decide (1 ≤ p.numBuses) && decide (p.numBuses ≤ 16) &&
  p.devmap.all (fun b => decide (b.toNat < p.numBuses)) &&
  decide (p.timingStandard < 2 ^ p.profileWidth) && decide (p.timingOverclock < 2 ^ p.profileWidth) &&
  decide (1 ≤ p.callers)

end Sys2Proof
end

