-- ==== Sys2Proof/Decode.lean ====
section
/-! DEFINITION. The decoder of command and event words, total on 32-bit words and rejecting by name
(30_encoding.md R83, R76, R79, R82), and the encoder written from the same tables. -/

namespace Sys2Proof

/-! ### Fields (30_encoding.md R71, R78, R79) -/

/-- `OP` or `KIND`, bits [31:28]. -/
def opOf (w : Word) : BitVec 4 := w.extractLsb' 28 4

/-- `DEV` or `BUS`, bits [27:24]. -/
def devOf (w : Word) : BitVec 4 := w.extractLsb' 24 4

/-- `RSV`, bit [23]. -/
def rsvOf (w : Word) : Bit := w.extractLsb' 23 1

/-- `ADDR7`, bits [22:16]. -/
def addr7Of (w : Word) : Addr7 := w.extractLsb' 16 7

/-- `REG` or `NBYTES`, bits [15:8]. -/
def regOf (w : Word) : Byte := w.extractLsb' 8 8

/-- `DATA`, `LEN`, `SADDR` or a data byte, bits [7:0]. -/
def lowByteOf (w : Word) : Byte := w.extractLsb' 0 8

/-! ### Enumeration codes (30_encoding.md R82) -/

/-- Code of `END`. -/
def EndMode.code : EndMode → BitVec 2
  | .reload => 0
  | .autoEnd => 1
  | .softEnd => 2

/-- `END` of a code; 3 is reserved. -/
def EndMode.ofCode (c : BitVec 2) : Option EndMode :=
  match c.toNat with
  | 0 => some .reload
  | 1 => some .autoEnd
  | 2 => some .softEnd
  | _ => none

/-- Code of `DIR`. -/
def Dir.code : Dir → Bit
  | .w => 0
  | .r => 1

/-- `DIR` of a code. -/
def Dir.ofCode (c : Bit) : Dir := if c = 0 then .w else .r

/-- Code of `FLAG`. -/
def Flag.code : Flag → BitVec 4
  | .busBusy => 0
  | .txReady => 1
  | .tcReload => 2
  | .tc => 3
  | .stop => 4
  | .rxReady => 5

/-- `FLAG` of a code; 6 to 15 are reserved. -/
def Flag.ofCode (c : BitVec 4) : Option Flag :=
  match c.toNat with
  | 0 => some .busBusy
  | 1 => some .txReady
  | 2 => some .tcReload
  | 3 => some .tc
  | 4 => some .stop
  | 5 => some .rxReady
  | _ => none

/-! ### Decoding -/

/-- The command decoder: `OP` first, then the reserved fields of that `OP` (30_encoding.md R83, R76). -/
def decodeCommand (w : Word) : Except RefuseReason Instr :=
  match (opOf w).toNat with
  | 1 =>
    if w.extractLsb' 0 24 = 0 then .ok (.init (devOf w)) else .error .reservedField
  | 2 =>
    if rsvOf w = 0 then .ok (.write (devOf w) (addr7Of w) (regOf w) (lowByteOf w))
    else .error .reservedField
  | 3 =>
    if rsvOf w = 0 ∧ devOf w = 0 then .ok (.writec (addr7Of w) (regOf w) (lowByteOf w))
    else .error .reservedField
  | 4 =>
    if rsvOf w = 0 then .ok (.read (devOf w) (addr7Of w) (regOf w) (lowByteOf w))
    else .error .reservedField
  | 5 =>
    if rsvOf w = 0 ∧ devOf w = 0 then .ok (.readc (addr7Of w) (regOf w) (lowByteOf w))
    else .error .reservedField
  | 6 =>
    if w.extractLsb' 0 28 = 0 then .ok .geterr else .error .reservedField
  | _ => .error .reservedOp

/-- The event decoder (30_encoding.md R78, R79, R82). -/
def decodeEvent (w : Word) : Except EventError Instr :=
  match (opOf w).toNat with
  | 8 =>
    if w.extractLsb' 16 4 = 0 then
      match EndMode.ofCode (w.extractLsb' 22 2) with
      | some e =>
        .ok (.begin (devOf w) e (w.extractLsb' 21 1) (Dir.ofCode (w.extractLsb' 20 1)) (regOf w) (lowByteOf w))
      | none => .error .reservedEnum
    else .error .reservedPayload
  | 9 =>
    if w.extractLsb' 8 16 = 0 then .ok (.tx (devOf w) (lowByteOf w)) else .error .reservedPayload
  | 10 =>
    if w.extractLsb' 8 16 = 0 then .ok (.rx (devOf w) (lowByteOf w)) else .error .reservedPayload
  | 11 =>
    if w.extractLsb' 0 24 = 0 then .ok (.clrstop (devOf w)) else .error .reservedPayload
  | 12 =>
    if w.extractLsb' 1 19 = 0 then
      match Flag.ofCode (w.extractLsb' 20 4) with
      | some f => .ok (.sample (devOf w) f (w.extractLsb' 0 1))
      | none => .error .reservedEnum
    else .error .reservedPayload
  | 13 =>
    if w.extractLsb' 1 23 = 0 then .ok (.config (devOf w) (w.extractLsb' 0 1))
    else .error .reservedPayload
  | _ => .error .reservedKind

/-- `KIND` 8 to 13 are the event kinds (30_encoding.md R79); no `OP` code is one of them (R72). -/
def isEventWord (w : Word) : Bool := decide (8 ≤ (opOf w).toNat) && decide ((opOf w).toNat ≤ 13)

/-- Either format, told apart by bits [31:28]. -/
def decode (w : Word) : Except DecodeError Instr :=
  if isEventWord w then
    match decodeEvent w with
    | .ok i => .ok i
    | .error e => .error (.event e)
  else
    match decodeCommand w with
    | .ok i => .ok i
    | .error r => .error (.command r)

/-! ### Encoding -/

/-- The word of an instruction (30_encoding.md R71, R72, R78, R79). -/
def encode : Instr → Word
  | .init dev => 1#4 ++ (dev ++ 0#24)
  | .write dev a r d => 2#4 ++ (dev ++ (0#1 ++ (a ++ (r ++ d))))
  | .writec a r d => 3#4 ++ (0#4 ++ (0#1 ++ (a ++ (r ++ d))))
  | .read dev a r l => 4#4 ++ (dev ++ (0#1 ++ (a ++ (r ++ l))))
  | .readc a r l => 5#4 ++ (0#4 ++ (0#1 ++ (a ++ (r ++ l))))
  | .geterr => 6#4 ++ 0#28
  | .begin b e st d n sa => 8#4 ++ (b ++ (e.code ++ (st ++ (d.code ++ (0#4 ++ (n ++ sa))))))
  | .tx b v => 9#4 ++ (b ++ (0#16 ++ v))
  | .rx b v => 10#4 ++ (b ++ (0#16 ++ v))
  | .clrstop b => 11#4 ++ (b ++ 0#24)
  | .sample b f v => 12#4 ++ (b ++ (f.code ++ (0#19 ++ v)))
  | .config b o => 13#4 ++ (b ++ (0#23 ++ o))

/-- A table row's word, its bits numbered as spec/opcode_table.json numbers them. Every row is one 32-bit word
(30_encoding.md R70), so there is nothing to lay out beyond the word itself. -/
def decodeTableWord (nbits w : Nat) : Option Instr :=
  match decode (BitVec.ofNat 32 (w % 2 ^ nbits)) with
  | .ok i => some i
  | .error _ => none

end Sys2Proof
end

