-- ==== Sys2Proof/Machine/State.lean ====
section
/-! DEFINITION. The state of the controller with its command port, its callers and its caller memory
(10_state.md R21, R36; 20_memory.md R50), the reasons a step stops, and the state after reset
(70_reset_and_hazards.md R240). -/

namespace Sys2Proof.Machine

/-- `PHASE` (30_encoding.md R80). Code 15 is reserved and never entered, so it has no constructor. -/
inductive Phase where
  | idle
  | wBusfree
  | wAddr
  | wReg
  | wDatacfg
  | wData
  | wClrstop
  | rBusfree
  | rAddr
  | rReg
  | rReadcfg
  | rRecv
  | rStop
  | rClrstop
  | rRxbyte
  deriving DecidableEq, Repr

/-- `STAGE` (30_encoding.md R81). -/
inductive Stage where
  | entry
  | poll
  deriving DecidableEq, Repr

/-- The BusHandle of one bus: `BUSINIT[b]` and `PROFILE[b]` (10_state.md R24, R25). -/
structure BusHandle where
  inited : Bool
  profile : Nat
  deriving DecidableEq, Repr

/-- What a command answers its caller with (10_state.md R36): a transaction `RSP_OK`, GETERR `RSP_VALUE`,
INIT no value. -/
inductive Response where
  | ok (v : Bit)
  | value (v : Nat)
  | noValue
  deriving DecidableEq, Repr

/-- The command port as one caller sees it (10_state.md R36; 60_exceptions.md R220). -/
structure CallerPort where
  /-- The caller has a transaction outstanding and waits for its response. -/
  outstanding : Bool
  /-- The last response delivered to this caller; none since it had a transaction accepted. -/
  response : Option Response
  /-- `RSP_OK` as last driven to this caller. -/
  rspOk : Bit
  /-- `RSP_VALUE` as last driven to this caller. -/
  rspValue : Nat
  /-- The bytes the caller's last `MemRead` returned (20_memory.md R55). -/
  seen : List Byte
  deriving DecidableEq, Repr

/-- One item of the history `H` (10_state.md R34): an event word, or a `MEMW(addr, v)` record. -/
inductive Record where
  | event (w : Word)
  | memw (addr : Nat) (v : Byte)
  deriving DecidableEq, Repr

/-- Who takes the next step, with what that agent puts in (10_state.md R20; 60_exceptions.md R220). DESIGN
CHOICE (log entry 5): the interleaving is plain data. -/
inductive Turn where
  /-- The CONTROLLER takes one step. -/
  | controller
  /-- Caller `c` puts a command word and its side operands on the command port. -/
  | issue (c : Nat) (word : Word) (buf cap : Nat)
  /-- Caller `c` receives the response to its outstanding transaction. -/
  | receive (c : Nat)
  /-- Caller `c` reads `n` bytes of caller memory. -/
  | load (c addr n : Nat)
  /-- Caller `c` writes one byte of caller memory. -/
  | store (c addr : Nat) (v : Byte)
  /-- An event word is performed on the bus interface by itself (log entry 7). -/
  | busEvent (word : Word)
  deriving DecidableEq, Repr

/-- Caller memory: the bytes that differ from what an unlisted address reads as, by rising address. -/
abbrev Memory := List Host.Cell

/-- The whole machine. -/
structure State where
  /-- `ERRCNT` (10_state.md R22), below `2 ^ ERR_WIDTH`. -/
  errcnt : Nat
  /-- `CURDEV` (10_state.md R23). -/
  curdev : DevId
  /-- `BUSINIT[b]` and `PROFILE[b]` for each bus (10_state.md R24, R25). -/
  buses : List BusHandle
  /-- `PHASE` (10_state.md R26). -/
  phase : Phase
  /-- `STAGE` (10_state.md R26). -/
  stage : Stage
  /-- `CTR` (10_state.md R31). -/
  ctr : Nat
  /-- `TBUS` (10_state.md R28). -/
  tbus : BusId
  /-- `TSADDR` (10_state.md R28). -/
  tsaddr : Byte
  /-- `TREG` (10_state.md R28). -/
  treg : Byte
  /-- `TDATA` (10_state.md R28). -/
  tdata : Byte
  /-- `TLEN` (10_state.md R28). -/
  tlen : Byte
  /-- `TOFF` (10_state.md R29). -/
  toff : Byte
  /-- `TREM` (10_state.md R29). -/
  trem : Byte
  /-- `TBUF` (10_state.md R30), below `2 ^ ADDR_WIDTH`. -/
  tbuf : Nat
  /-- `TCAP` (10_state.md R30). -/
  tcap : Nat
  /-- `TCALLER` (10_state.md R32). -/
  tcaller : Nat
  /-- `REFUSED` with the reason of the first refusal (10_state.md R33). -/
  refused : Option RefuseReason
  /-- `H`, oldest item first (10_state.md R34). -/
  hist : List Record
  /-- Caller memory (20_memory.md R50). -/
  mem : Memory
  /-- `CMD_WORD` (10_state.md R36). -/
  cmdWord : Word
  /-- `CMD_BUF` (10_state.md R36), below `2 ^ ADDR_WIDTH`. -/
  cmdBuf : Nat
  /-- `CMD_CAP` (10_state.md R36). -/
  cmdCap : Nat
  /-- The caller whose word stands on the command port (10_state.md R36). -/
  cmdCaller : Nat
  /-- The callers' side of the command port, caller `c` at place `c` (10_state.md R36). -/
  callers : List CallerPort
  /-- MODEL'S OWN: the configuration, which no step changes (log entry 1). -/
  cfg : Params
  /-- MODEL'S OWN: the turns still to be taken (log entry 5). -/
  agenda : List Turn
  /-- MODEL'S OWN: the bits the bus answers the next samples with (log entry 4). -/
  sampleScript : List Bit
  /-- MODEL'S OWN: the bytes the bus answers the next receives with (log entry 4). -/
  rxScript : List Byte
  /-- MODEL'S OWN: how many free draws were taken (log entry 4). -/
  draws : Nat
  deriving DecidableEq, Repr

/-- Why a step stops. Each is safe: the model stops where the spec says nothing happens, or where no run that the
spec allows arrives. -/
inductive Fault where
  /-- Raised by a `busEvent` turn whose word is no event word (93_implementation_defined.md I14: "A model that
  decodes one may fault"). Safe. -/
  | reservedEvent (e : EventError)
  /-- Raised by a controller step in POLL of a phase without a wait, which 30_encoding.md R81 excludes. Safe. -/
  | pollWithoutWait
  /-- Raised by an access to an address at or above `2 ^ ADDR_WIDTH`, which names no byte (20_memory.md R51). Safe. -/
  | addressOutsideMemory
  deriving DecidableEq, Repr

/-- Why an instruction has no meaning. -/
inductive Refusal where
  /-- Raised by an arm of `exec` that has no meaning yet; no arm does. Safe. -/
  | notModelled (mnemonic : String)
  deriving DecidableEq, Repr

/-- A bus before any INIT: `BUSINIT` 0 (R240); `PROFILE` has no value, DESIGN CHOICE 0 (log entry 2). -/
def BusHandle.atReset : BusHandle where
  inited := false
  profile := 0

/-- A caller before any command: no response given (R240); `RSP_OK` and `RSP_VALUE` DESIGN CHOICE 0 (log entry 2). -/
def CallerPort.atReset : CallerPort where
  outstanding := false
  response := none
  rspOk := 0
  rspValue := 0
  seen := []

/-- The machine right after reset under the configuration `cfg` (70_reset_and_hazards.md R240). Registers that
rule leaves with no value hold 0, DESIGN CHOICE (log entry 2). -/
def State.resetWith (cfg : Params) : State where
  errcnt := 0
  curdev := 0
  buses := List.replicate cfg.numBuses BusHandle.atReset
  phase := .idle
  stage := .entry
  ctr := 0
  tbus := 0
  tsaddr := 0
  treg := 0
  tdata := 0
  tlen := 0
  toff := 0
  trem := 0
  tbuf := 0
  tcap := 0
  tcaller := 0
  refused := none
  hist := []
  mem := []
  cmdWord := 0
  cmdBuf := 0
  cmdCap := 0
  cmdCaller := 0
  callers := List.replicate cfg.callers CallerPort.atReset
  cfg := cfg
  agenda := []
  sampleScript := []
  rxScript := []
  draws := 0

/-- The machine right after reset, under the reference configuration (log entry 1). -/
def State.reset : State := State.resetWith Params.reference

end Sys2Proof.Machine
end

