-- ==== Sys2Proof/Machine/Ops.lean ====
section
/-! DEFINITION. The named operations over the state: caller memory, draws, bus-interface primitives, the
countdown, `Complete`, `Timeout` and `refuse` (00_scope.md R10). -/

namespace Sys2Proof.Machine

/-- The outcome of a step of this machine. -/
abbrev Out := Host.Outcome State Fault Refusal

/-- Go on with `f` where `o` gives a next state. -/
def andThen (o : Out) (f : State → Out) : Out :=
  match o with
  | .next s => f s
  | .fault r => .fault r
  | .refused r => .refused r

/-! ### Caller memory (20_memory.md R51 to R56) -/

/-- What a byte that nothing has written reads as. DESIGN CHOICE (log entry 3), after 95_test_vectors.md section 0. -/
def unlistedByte : Byte := 0

/-- The byte at address `a`. -/
def Memory.read : Memory → Nat → Byte
  | [], _ => unlistedByte
  | (k, v) :: m, a => if k = a then v else Memory.read m a

/-- `m` with `v` at address `a`, in the canonical form. -/
def Memory.write : Memory → Nat → Byte → Memory
  | [], a, v => if v = unlistedByte then [] else [(a, v)]
  | (k, x) :: m, a, v =>
    if a < k then (if v = unlistedByte then (k, x) :: m else (a, v) :: (k, x) :: m)
    else if a = k then (if v = unlistedByte then m else (a, v) :: m)
    else (k, x) :: Memory.write m a v

/-- Addresses rise strictly from above `lo` and no entry is what an unlisted address reads as. -/
def Memory.risesFrom : Nat → Memory → Bool
  | _, [] => true
  | lo, (k, v) :: m => decide (lo ≤ k) && decide (v ≠ unlistedByte) && Memory.risesFrom (k + 1) m

/-- The canonical form of a memory. -/
def Memory.wf (m : Memory) : Bool := Memory.risesFrom 0 m

/-- `MemRead(addr, n)`: the lowest address first (20_memory.md R55). -/
def Memory.readMany (m : Memory) : Nat → Nat → List Byte
  | _, 0 => []
  | a, n + 1 => m.read a :: Memory.readMany m (a + 1) n

/-- The number of addresses, `2 ^ ADDR_WIDTH` (20_memory.md R51). -/
def State.addrSpace (s : State) : Nat := 2 ^ s.cfg.addrWidth

/-- `s` with one item appended to the history `H`. -/
def State.log (r : Record) (s : State) : State := { s with hist := s.hist ++ [r] }

/-- `MemWrite(addr, 1, v)`: the byte and its `MEMW` record (20_memory.md R56). -/
def State.memWrite (addr : Nat) (v : Byte) (s : State) : Out :=
  if addr < s.addrSpace then .next { s with mem := s.mem.write addr v, hist := s.hist ++ [.memw addr v] }
  else .fault .addressOutsideMemory

/-! ### Draws (00_scope.md R11; 41_bus_interface.md R127) -/

/-- The bus's answer to one status sample: the script's next bit, else a fresh free value (log entry 4). -/
def State.drawBit (s : State) : Bit :=
  match s.sampleScript with
  | v :: _ => v
  | [] => Config.busSample s.draws

/-- `s` after that answer was taken. -/
def State.tookBit (s : State) : State :=
  match s.sampleScript with
  | _ :: rest => { s with sampleScript := rest }
  | [] => { s with draws := s.draws + 1 }

/-- The bus's answer to one receive: the script's next byte, else a fresh free value (log entry 4). -/
def State.drawByte (s : State) : Byte :=
  match s.rxScript with
  | v :: _ => v
  | [] => Config.busByte s.draws

/-- `s` after that answer was taken. -/
def State.tookByte (s : State) : State :=
  match s.rxScript with
  | _ :: rest => { s with rxScript := rest }
  | [] => { s with draws := s.draws + 1 }

/-! ### Bus-interface primitives (41_bus_interface.md R120 to R125) -/

/-- `Emit(e)`: the event word of `e` joins the history (00_scope.md R10). -/
def State.emit (e : Instr) (s : State) : State := s.log (.event (encode e))

/-- BEGIN (R121). -/
def State.beginTransfer (b : BusId) (e : EndMode) (start : Bit) (d : Dir) (nbytes saddr : Byte) (s : State) : State :=
  s.emit (.begin b e start d nbytes saddr)

/-- TX (R123). -/
def State.transmit (b : BusId) (v : Byte) (s : State) : State := s.emit (.tx b v)

/-- RX of the byte `v` (R124). -/
def State.received (b : BusId) (v : Byte) (s : State) : State := s.emit (.rx b v)

/-- CLRSTOP (R125). -/
def State.clearStop (b : BusId) (s : State) : State := s.emit (.clrstop b)

/-- SAMPLE of flag `f` answered with `v` (R120). -/
def State.sampled (b : BusId) (f : Flag) (v : Bit) (s : State) : State := s.emit (.sample b f v)

/-- CONFIG (44_registry_diag.md R193). -/
def State.configured (b : BusId) (o : Bit) (s : State) : State := s.emit (.config b o)

/-! ### Buses (10_state.md R24, R25) -/

/-- `BUSINIT[b]`. -/
def State.busInit (s : State) (b : BusId) : Bool :=
  match s.buses[b.toNat]? with
  | some h => h.inited
  | none => false

/-- `OVERCLOCK[b]` (10_state.md R35). -/
def State.overclock (s : State) (b : BusId) : Bit :=
  match s.cfg.overclock[b.toNat]? with
  | some o => o
  | none => 0

/-- The timing profile that `OVERCLOCK[b]` selects (10_state.md R25). -/
def State.timingFor (s : State) (b : BusId) : Nat :=
  if s.overclock b = 1 then s.cfg.timingOverclock else s.cfg.timingStandard

/-! ### Callers and responses (10_state.md R36; 60_exceptions.md R212, R220) -/

/-- Caller `c` is a member of `CALLERS` that waits for no response. -/
def State.canMove (s : State) (c : Nat) : Bool :=
  match s.callers[c]? with
  | some p => !p.outstanding
  | none => false

/-- Caller `c`'s port changed by `f`. -/
def State.onCaller (c : Nat) (f : CallerPort → CallerPort) (s : State) : State :=
  { s with callers := s.callers.modify c f }

/-- An accepted transaction leaves its caller waiting (R36). -/
def CallerPort.await (p : CallerPort) : CallerPort := { p with outstanding := true, response := none }

/-- `RSP_OK` is driven (R212). -/
def CallerPort.gotOk (v : Bit) (p : CallerPort) : CallerPort := { p with response := some (.ok v), rspOk := v }

/-- `RSP_VALUE` is driven (44_registry_diag.md R195). -/
def CallerPort.gotValue (v : Nat) (p : CallerPort) : CallerPort :=
  { p with response := some (.value v), rspValue := v }

/-- A response with no value (44_registry_diag.md R192). -/
def CallerPort.gotNoValue (p : CallerPort) : CallerPort := { p with response := some .noValue }

/-- The caller receives the response of its outstanding transaction, if it was delivered, and goes on. -/
def CallerPort.receive (p : CallerPort) : CallerPort :=
  match p.response with
  | some _ => { p with outstanding := false }
  | none => p

/-! ### Countdown, completion, timeout, refusal -/

/-- The number of samples of a budget (40_timer.md R107, R108). -/
def Params.budget (p : Params) : Budget → Nat
  | .short => p.shortBudget
  | .long => p.longBudget
  | .readSetup => p.readSetupBudget

/-- `Arm(n)` (40_timer.md R100). -/
def State.arm (n : Nat) (s : State) : State := { s with ctr := n }

/-- `Complete(ok)` (60_exceptions.md R212). -/
def State.complete (ok : Bit) (s : State) : State :=
  ({ s with phase := .idle }).onCaller s.tcaller (CallerPort.gotOk ok)

/-- `Timeout()` (40_timer.md R105): the count, modulo `2 ^ ERR_WIDTH`, and `Complete(0)` in one step. -/
def State.timeout (s : State) : State :=
  ({ s with errcnt := (s.errcnt + 1) % 2 ^ s.cfg.errWidth }).complete 0

/-- `refuse(REASON)` (60_exceptions.md R214): the mark is sticky and keeps the first reason. -/
def State.refuse (r : RefuseReason) (s : State) : State :=
  match s.refused with
  | some _ => s
  | none => { s with refused := some r }

end Sys2Proof.Machine
end

