-- ==== Sys2Proof/Machine/Callers.lean ====
section
/-! DEFINITION. What a caller does besides issuing a command (60_exceptions.md R220): it receives its response and
accesses caller memory (20_memory.md R55, R61, R62). -/

namespace Sys2Proof.Machine

/-- Caller `c` receives the response to its transaction; before the response it keeps waiting (10_state.md R36). -/
def State.receiveResponse (c : Nat) (s : State) : State := s.onCaller c CallerPort.receive

/-- The byte range `[addr, addr + n)` lies inside the address space (20_memory.md R51). -/
def State.inSpace (s : State) (addr n : Nat) : Bool := decide (addr + n ≤ s.addrSpace)

/-- `MemRead(addr, n)` by caller `c` (20_memory.md R55). -/
def State.callerLoad (c addr n : Nat) (s : State) : Out :=
  if s.inSpace addr n then .next (s.onCaller c fun p => { p with seen := s.mem.readMany addr n })
  else .fault .addressOutsideMemory

/-- A caller writes one byte of caller memory; it is no `MemWrite` of the controller, so `H` keeps no record of it
(20_memory.md R56, R62; log entry 21). -/
def State.callerStore (addr : Nat) (v : Byte) (s : State) : Out :=
  if s.inSpace addr 1 then .next { s with mem := s.mem.write addr v } else .fault .addressOutsideMemory

/-- The command port takes a caller's inputs (10_state.md R36): `CMD_BUF` has `ADDR_WIDTH` bits. -/
def State.latchCommand (c : Nat) (word : Word) (buf cap : Nat) (s : State) : State :=
  { s with cmdCaller := c, cmdWord := word, cmdBuf := buf % s.addrSpace, cmdCap := cap }

end Sys2Proof.Machine
end

