-- ==== Sys2Proof/Machine/BusEvents.lean ====
section
/-! DEFINITION. The six event words as instructions: each performs its bus-interface primitive, which writes only the
history (41_bus_interface.md R120 to R125; 44_registry_diag.md R193). The value a SAMPLE or an RX carries is the bus's answer
(log entry 9). -/

namespace Sys2Proof.Machine

/-- `BEGIN` (41_bus_interface.md R121). -/
def execBegin (bus : BusId) (endMode : EndMode) (start : Bit) (dir : Dir) (nbytes saddr : Byte) (s : State) : Out :=
  .next (s.beginTransfer bus endMode start dir nbytes saddr)

/-- `TX` (41_bus_interface.md R123). -/
def execTx (bus : BusId) (byte : Byte) (s : State) : Out := .next (s.transmit bus byte)

/-- `RX` (41_bus_interface.md R124). -/
def execRx (bus : BusId) (byte : Byte) (s : State) : Out := .next (s.received bus byte)

/-- `CLRSTOP` (41_bus_interface.md R125). -/
def execClrstop (bus : BusId) (s : State) : Out := .next (s.clearStop bus)

/-- `SAMPLE` (41_bus_interface.md R120). -/
def execSample (bus : BusId) (flag : Flag) (value : Bit) (s : State) : Out := .next (s.sampled bus flag value)

/-- `CONFIG` (44_registry_diag.md R193). -/
def execConfig (bus : BusId) (overclock : Bit) (s : State) : Out := .next (s.configured bus overclock)

end Sys2Proof.Machine
end

