-- ==== Sys2Proof/Machine/Operands.lean ====
section
/-! DEFINITION. Operand assembly (30_encoding.md R74, R75) and the acceptance checks of a command in the order of
60_exceptions.md R215. -/

namespace Sys2Proof.Machine

/-- The bus address byte `zext_8(ADDR7) << 1` (30_encoding.md R74). -/
def saddrOf (a : Addr7) : Byte := a.zeroExtend 8 <<< 1

/-- `DEVMAP[d]`, or none where `d >= NUM_DEVICES` (44_registry_diag.md R190). -/
def State.busOf (s : State) (d : DevId) : Option BusId := s.cfg.devmap[d.toNat]?

/-- The checks 3 and 4: no operation in flight, a known device (60_exceptions.md R215). -/
def State.checkDevice (s : State) (d : DevId) : Except RefuseReason BusId :=
  if s.phase = .idle then
    match s.busOf d with
    | some b => .ok b
    | none => .error .unknownDevice
  else .error .busy

/-- The checks 3 to 5 of a transaction: also its bus is initialised (60_exceptions.md R215). -/
def State.checkBus (s : State) (d : DevId) : Except RefuseReason BusId :=
  match s.checkDevice d with
  | .ok b => if s.busInit b then .ok b else .error .busUninit
  | .error r => .error r

/-- The read buffer `[CMD_BUF, CMD_BUF + CMD_CAP)` is inside the address space and holds `len` bytes (20_memory.md R52). -/
def State.bufferFits (s : State) (len : Byte) : Bool :=
  decide (s.cmdBuf + s.cmdCap ≤ s.addrSpace) && decide (len.toNat ≤ s.cmdCap)

/-- The checks 3 to 7 of a read (60_exceptions.md R215; 43_read.md R160, R172). -/
def State.checkRead (s : State) (d : DevId) (len : Byte) : Except RefuseReason BusId :=
  match s.checkBus d with
  | .ok b =>
    if len = 0 ∧ s.cfg.zeroLenPolicy = .refuse then .error .zeroLength
    else if s.bufferFits len then .ok b
    else .error .buffer
  | .error r => .error r

end Sys2Proof.Machine
end

