-- ==== Sys2Proof/Machine/Registry.lean ====
section
/-! DEFINITION. INIT and GETERR (44_registry_diag.md R191, R192, R195), each one step of the issuing caller. -/

namespace Sys2Proof.Machine

/-- The effect of an accepted INIT of device `d` on bus `b` (44_registry_diag.md R192). -/
def State.initialise (d : DevId) (b : BusId) (s : State) : State :=
  (({ s with
      curdev := d
      buses := s.buses.set b.toNat ⟨true, s.timingFor b⟩ }).configured b (s.overclock b)).onCaller
    s.cmdCaller CallerPort.gotNoValue

/-- The acceptance of an INIT of device `d` (44_registry_diag.md R191). -/
def State.acceptInit (d : DevId) (s : State) : State :=
  match s.checkDevice d with
  | .ok b => s.initialise d b
  | .error r => s.refuse r

/-- `INIT DEV` (44_registry_diag.md R191). -/
def execInit (dev : DevId) (s : State) : Out := .next (s.acceptInit dev)

/-- `GETERR` (44_registry_diag.md R195): never refused, whatever `PHASE` is. -/
def execGeterr (s : State) : Out :=
  .next (s.onCaller s.cmdCaller (CallerPort.gotValue s.errcnt))

end Sys2Proof.Machine
end

