-- ==== Sys2Proof/Machine/Transactions.lean ====
section
/-! DEFINITION. WRITE, WRITEC, READ and READC: acceptance of a transaction, one step of the issuing caller
(42_write.md R140, R141; 43_read.md R160, R161). -/

namespace Sys2Proof.Machine

/-- What every acceptance loads (R140, R160), and the caller left waiting for `RSP_OK`. -/
def State.loadTransaction (b : BusId) (a : Addr7) (reg : Byte) (first : Phase) (s : State) : State :=
  ({ s with
      tbus := b
      tsaddr := saddrOf a
      treg := reg
      tcaller := s.cmdCaller
      phase := first
      stage := .entry }).onCaller s.cmdCaller CallerPort.await

/-- The acceptance of a write on device `d` (42_write.md R140). -/
def State.acceptWrite (d : DevId) (a : Addr7) (reg data : Byte) (s : State) : State :=
  match s.checkBus d with
  | .ok b => { s.loadTransaction b a reg .wBusfree with tdata := data }
  | .error r => s.refuse r

/-- The acceptance of a read on device `d` (43_read.md R160). -/
def State.acceptRead (d : DevId) (a : Addr7) (reg len : Byte) (s : State) : State :=
  match s.checkRead d len with
  | .ok b =>
    { s.loadTransaction b a reg .rBusfree with
      tlen := len
      toff := 0
      trem := len
      tbuf := s.cmdBuf
      tcap := s.cmdCap }
  | .error r => s.refuse r

/-- `WRITE DEV, ADDR7, REG, DATA` (42_write.md R140). -/
def execWrite (dev : DevId) (addr7 : Addr7) (reg data : Byte) (s : State) : Out :=
  .next (s.acceptWrite dev addr7 reg data)

/-- `WRITEC ADDR7, REG, DATA`: the same on `CURDEV` (42_write.md R141; log entry 16). -/
def execWritec (addr7 : Addr7) (reg data : Byte) (s : State) : Out :=
  .next (s.acceptWrite s.curdev addr7 reg data)

/-- `READ DEV, ADDR7, REG, LEN` with the side operands `CMD_BUF` and `CMD_CAP` (43_read.md R160). -/
def execRead (dev : DevId) (addr7 : Addr7) (reg len : Byte) (s : State) : Out :=
  .next (s.acceptRead dev addr7 reg len)

/-- `READC ADDR7, REG, LEN`: the same on `CURDEV` (43_read.md R161; log entry 16). -/
def execReadc (addr7 : Addr7) (reg len : Byte) (s : State) : Out :=
  .next (s.acceptRead s.curdev addr7 reg len)

end Sys2Proof.Machine
end

