-- ==== Sys2Proof/Machine/Dispatch.lean ====
section
/-! DEFINITION. One arm for each constructor of Instr. -/

namespace Sys2Proof.Machine

/-- The meaning of an instruction in a state. -/
def exec (i : Instr) (s : State) : Host.Outcome State Fault Refusal :=
  match i with
  | .init dev => Sys2Proof.Machine.execInit dev s
  | .write dev addr7 reg data => Sys2Proof.Machine.execWrite dev addr7 reg data s
  | .writec addr7 reg data => Sys2Proof.Machine.execWritec addr7 reg data s
  | .read dev addr7 reg len => Sys2Proof.Machine.execRead dev addr7 reg len s
  | .readc addr7 reg len => Sys2Proof.Machine.execReadc addr7 reg len s
  | .geterr => Sys2Proof.Machine.execGeterr s
  | .begin bus endMode start dir nbytes saddr => Sys2Proof.Machine.execBegin bus endMode start dir nbytes saddr s
  | .tx bus byte => Sys2Proof.Machine.execTx bus byte s
  | .rx bus byte => Sys2Proof.Machine.execRx bus byte s
  | .clrstop bus => Sys2Proof.Machine.execClrstop bus s
  | .sample bus flag value => Sys2Proof.Machine.execSample bus flag value s
  | .config bus overclock => Sys2Proof.Machine.execConfig bus overclock s

end Sys2Proof.Machine
end

