-- ==== Sys2Proof/Machine/Flags.lean ====
section
/-! DEFINITION. The controller has no flags register of its own (10_state.md R37, R40): its flags are the bus's six
status flags, each sampled anew. Which flag a phase waits for, when a sample satisfies the wait, and the
one sampling operation (30_encoding.md R80; 40_timer.md R102). -/

namespace Sys2Proof.Machine

/-- The wait of a phase: the flag sampled, the value that satisfies it, the budget, and the successor. -/
structure Wait where
  flag : Flag
  want : Bit
  budget : Budget
  successor : Phase
  deriving DecidableEq, Repr

/-- The wait columns of the phase table (30_encoding.md R80), `none` for a phase without a wait. -/
def waitOf : Phase → Option Wait
  | .idle => none
  | .wBusfree => some ⟨.busBusy, 0, .long, .wAddr⟩
  | .wAddr => some ⟨.txReady, 1, .long, .wReg⟩
  | .wReg => some ⟨.tcReload, 1, .long, .wDatacfg⟩
  | .wDatacfg => some ⟨.txReady, 1, .long, .wData⟩
  | .wData => some ⟨.stop, 1, .long, .wClrstop⟩
  | .wClrstop => none
  | .rBusfree => some ⟨.busBusy, 0, .long, .rAddr⟩
  | .rAddr => some ⟨.txReady, 1, .readSetup, .rReg⟩
  | .rReg => some ⟨.tc, 1, .readSetup, .rReadcfg⟩
  | .rReadcfg => none
  | .rRecv => some ⟨.rxReady, 1, .short, .rRxbyte⟩
  | .rStop => some ⟨.stop, 1, .long, .rClrstop⟩
  | .rClrstop => none
  | .rRxbyte => none

/-- A sampled value satisfies the wait (40_timer.md R102). -/
def Wait.satisfiedBy (w : Wait) (v : Bit) : Bool := decide (v = w.want)

/-- `Sample(TBUS, F)`: one draw and its SAMPLE event (41_bus_interface.md R120). -/
def State.sampleFlag (f : Flag) (s : State) : State := s.tookBit.sampled s.tbus f s.drawBit

end Sys2Proof.Machine
end

