-- ==== Sys2Proof/Machine/Sequencer.lean ====
section
/-! DEFINITION. The controller's step: the entry actions and successors of the phase table (30_encoding.md R80), the ENTRY
step (40_timer.md R106) and the POLL step (R101). -/

namespace Sys2Proof.Machine

/-- The entry action of R_RXBYTE (43_read.md R167): receive, write the byte at `TBUF + TOFF`, advance. -/
def State.receiveByte (s : State) : Out :=
  andThen ((s.tookByte.received s.tbus s.drawByte).memWrite (s.tbuf + s.toff.toNat) s.drawByte) fun t =>
    .next { t with toff := t.toff + 1, trem := t.trem - 1 }

/-- The entry action of the current phase (30_encoding.md R80). -/
def State.entryAction (s : State) : Out :=
  match s.phase with
  | .idle => .next s
  | .wBusfree => .next s
  | .wAddr => .next (s.beginTransfer s.tbus .reload 1 .w 1 s.tsaddr)
  | .wReg => .next (s.transmit s.tbus s.treg)
  | .wDatacfg => .next (s.beginTransfer s.tbus .autoEnd 0 .w 1 s.tsaddr)
  | .wData => .next (s.transmit s.tbus s.tdata)
  | .wClrstop => .next (s.clearStop s.tbus)
  | .rBusfree => .next s
  | .rAddr => .next (s.beginTransfer s.tbus .softEnd 1 .w 1 s.tsaddr)
  | .rReg => .next (s.transmit s.tbus s.treg)
  | .rReadcfg => .next (s.beginTransfer s.tbus .autoEnd 1 .r s.tlen s.tsaddr)
  | .rRecv => .next s
  | .rStop => .next s
  | .rClrstop => .next (s.clearStop s.tbus)
  | .rRxbyte => s.receiveByte

/-- The receive loop goes on while `TREM > 0` (30_encoding.md R80, rows 10 and 14). -/
def State.nextReceive (s : State) : State :=
  { s with phase := if s.trem = 0 then .rStop else .rRecv, stage := .entry }

/-- What a phase without a wait does after its entry action (40_timer.md R106). -/
def State.leavePhase (s : State) : State :=
  match s.phase with
  | .wClrstop => s.complete 1
  | .rClrstop => s.complete 1
  | .rReadcfg => s.nextReceive
  | .rRxbyte => s.nextReceive
  | .idle => s
  | .wBusfree => s
  | .wAddr => s
  | .wReg => s
  | .wDatacfg => s
  | .wData => s
  | .rBusfree => s
  | .rAddr => s
  | .rReg => s
  | .rRecv => s
  | .rStop => s

/-- The ENTRY step (40_timer.md R106): the entry action, then the wait is armed or the phase is left. -/
def State.entryStep (s : State) : Out :=
  andThen s.entryAction fun t =>
    match waitOf s.phase with
    | some w => .next { t.arm (Params.budget s.cfg w.budget) with stage := .poll }
    | none => .next t.leavePhase

/-- A sample that does not satisfy the wait (40_timer.md R103, R104). -/
def State.failedSample (s : State) : State :=
  if s.ctr - 1 = 0 then ({ s with ctr := s.ctr - 1 }).timeout else { s with ctr := s.ctr - 1 }

/-- The POLL step (40_timer.md R101): one sample, then success, countdown or timeout. -/
def State.pollStep (s : State) : Out :=
  match waitOf s.phase with
  | some w =>
    if w.satisfiedBy s.drawBit then
      .next { s.sampleFlag w.flag with phase := w.successor, stage := .entry }
    else .next (s.sampleFlag w.flag).failedSample
  | none => .fault .pollWithoutWait

/-- One step of the CONTROLLER; in IDLE it has none to take and waits (70_reset_and_hazards.md R243). -/
def State.controllerStep (s : State) : Out :=
  if s.phase = .idle then .next s
  else
    match s.stage with
    | .entry => s.entryStep
    | .poll => s.pollStep

end Sys2Proof.Machine
end

