-- ==== Sys2Proof/Machine/Turns.lean ====
section
/-! DEFINITION. One turn of one agent (10_state.md R20; 60_exceptions.md R220; log entry 5). -/

namespace Sys2Proof.Machine

/-- The word on the command port is decoded and executed, or refused for its encoding (30_encoding.md R83, R76). -/
def State.runCommand (word : Word) (s : State) : Out :=
  match decodeCommand word with
  | .ok i => exec i s
  | .error r => .next (s.refuse r)

/-- An event word performed by itself (log entries 7 and 8). -/
def State.runEvent (word : Word) (s : State) : Out :=
  match decodeEvent word with
  | .ok i => exec i s
  | .error e => .fault (.reservedEvent e)

/-- One turn. An agent that has no step to take lets its turn pass (log entry 5): a caller waiting for its response
issues nothing and accesses nothing (10_state.md R36). -/
def State.takeTurn (t : Turn) (s : State) : Out :=
  match t with
  | .controller => s.controllerStep
  | .issue c word buf cap => if s.canMove c then (s.latchCommand c word buf cap).runCommand word else .next s
  | .receive c => .next (s.receiveResponse c)
  | .load c addr n => if s.canMove c then s.callerLoad c addr n else .next s
  | .store c addr v => if s.canMove c then s.callerStore addr v else .next s
  | .busEvent word => s.runEvent word

/-- The next turn of the agenda; when none is left the controller moves. -/
def State.advance (s : State) : Out :=
  match s.agenda with
  | [] => s.controllerStep
  | t :: rest => ({ s with agenda := rest }).takeTurn t

/-- `s` with a table row's word as its next turn (log entry 10): an event word at the bus interface, any other word issued
by caller 0, which is made free to issue it. -/
def State.placeWord (s : State) (nbits w : Nat) : State :=
  let word := BitVec.ofNat 32 (w % 2 ^ nbits)
  if isEventWord word then { s with agenda := .busEvent word :: s.agenda }
  else ({ s with agenda := .issue 0 word 0 0 :: s.agenda }).onCaller 0 fun p => { p with outstanding := false }

end Sys2Proof.Machine
end

