-- ==== Sys2Proof/Machine/Step.lean ====
section
/-! DEFINITION. The step function, and a state with a given instruction as its next turn. -/

namespace Sys2Proof.Machine

/-- One step of the machine. -/
def step (s : State) : Host.Outcome State Fault Refusal := s.advance

/-- `s` made to run the table row's word next (log entry 10). -/
def State.withFetchWord (s : State) (nbits w : Nat) : State := s.placeWord nbits w

end Sys2Proof.Machine
end

