-- ==== Sys2Proof/Safety.lean ====
section
/-! DEFINITION. What claims are stated in: runs of several steps, the machine invariant, the end of a run
(60_exceptions.md R227), and the reasons that speak against a command (R215). -/

namespace Sys2Proof.Machine

/-- `k` steps, stopping at the first fault or refusal. -/
def runSteps : Nat → State → Out
  | 0, s => .next s
  | k + 1, s => andThen (step s) (runSteps k)

/-- The byte of caller memory that a history item says the controller wrote (20_memory.md R56). -/
def Record.written : Record → Option (Nat × Byte)
  | .event _ => none
  | .memw a v => some (a, v)

/-- The read phases R_BUSFREE to R_RXBYTE (10_state.md R28). -/
def Phase.isRead : Phase → Bool
  | .idle => false
  | .wBusfree => false
  | .wAddr => false
  | .wReg => false
  | .wDatacfg => false
  | .wData => false
  | .wClrstop => false
  | .rBusfree => true
  | .rAddr => true
  | .rReg => true
  | .rReadcfg => true
  | .rRecv => true
  | .rStop => true
  | .rClrstop => true
  | .rRxbyte => true

/-- Caller `c` waits for a response that was not delivered yet. -/
def State.awaiting (s : State) (c : Nat) : Bool :=
  match s.callers[c]? with
  | some p => p.outstanding && p.response == none
  | none => false

/-- The current phase has a wait, and the countdown lies between 1 and its budget (40_timer.md R103, R112). -/
def State.countdownOk (s : State) : Bool :=
  match waitOf s.phase with
  | some w => decide (1 ≤ s.ctr) && decide (s.ctr ≤ Params.budget s.cfg w.budget)
  | none => false

/-- The invariant of the machine. -/
structure State.Inv (s : State) : Prop where
  /-- The configuration is within the ranges of 00_scope.md R7. -/
  cfgOk : s.cfg.wf = true
  /-- `ERRCNT` has `ERR_WIDTH` bits (10_state.md R22). -/
  errcntFits : s.errcnt < 2 ^ s.cfg.errWidth
  /-- `CURDEV` is a known device (10_state.md R23). -/
  curdevKnown : s.curdev.toNat < s.cfg.numDevices
  /-- One BusHandle for each bus. -/
  busesSized : s.buses.length = s.cfg.numBuses
  /-- A profile has `PROFILE_WIDTH` bits (10_state.md R25). -/
  profilesFit : ∀ h ∈ s.buses, h.profile < 2 ^ s.cfg.profileWidth
  /-- One port for each caller. -/
  callersSized : s.callers.length = s.cfg.callers
  /-- `RSP_VALUE` has `ERR_WIDTH` bits (10_state.md R36). -/
  valuesFit : ∀ p ∈ s.callers, p.rspValue < 2 ^ s.cfg.errWidth
  /-- Caller memory is in its canonical form. -/
  memCanonical : s.mem.wf = true
  /-- Caller memory lists addresses of the address space only (20_memory.md R51). -/
  memInSpace : ∀ c ∈ s.mem, c.1 < s.addrSpace
  /-- `CMD_BUF` has `ADDR_WIDTH` bits (10_state.md R36). -/
  cmdBufFits : s.cmdBuf < s.addrSpace
  /-- An operation runs on an initialised bus (10_state.md R24). -/
  flightBus : s.phase ≠ .idle → s.busInit s.tbus = true
  /-- Its address byte has bit 0 clear (30_encoding.md R74). -/
  flightAddr : s.phase ≠ .idle → s.tsaddr.getLsbD 0 = false
  /-- Its caller waits for the response (10_state.md R36). -/
  flightCaller : s.phase ≠ .idle → s.awaiting s.tcaller = true
  /-- POLL is the stage of waiting phases only, with a countdown in range (30_encoding.md R81). -/
  flightPoll : s.phase ≠ .idle → s.stage = .poll → s.countdownOk = true
  /-- `TOFF + TREM = TLEN` (10_state.md R29). -/
  readCount : s.phase.isRead = true → s.toff.toNat + s.trem.toNat = s.tlen.toNat
  /-- The read fits its buffer, and the buffer the address space (20_memory.md R52). -/
  readBuffer : s.phase.isRead = true → s.tlen.toNat ≤ s.tcap ∧ s.tbuf + s.tcap ≤ s.addrSpace
  /-- The receive loop runs with a byte left to receive (43_read.md R167). -/
  readLoop : s.phase = .rRecv ∨ s.phase = .rRxbyte → s.trem ≠ 0
  /-- The loop is left with none (43_read.md R167). -/
  readEnd : s.phase = .rStop ∨ s.phase = .rClrstop → s.trem = 0
  /-- Before the loop nothing was received (43_read.md R160). -/
  readStart : s.phase = .rBusfree ∨ s.phase = .rAddr ∨ s.phase = .rReg ∨ s.phase = .rReadcfg → s.toff = 0
  /-- Only the caller of the operation in flight waits for an undelivered response (60_exceptions.md R220). -/
  waiters : ∀ c, c < s.callers.length → s.awaiting c = true → s.phase ≠ .idle ∧ c = s.tcaller

/-- A turn that keeps to the event format and the address space: the `busEvent` word is an event word, and a memory access lies
inside the address space. -/
def Turn.lawful (cfg : Params) : Turn → Bool
  | .controller => true
  | .issue _ _ _ _ => true
  | .receive _ => true
  | .load _ addr n => decide (addr + n ≤ 2 ^ cfg.addrWidth)
  | .store _ addr _ => decide (addr < 2 ^ cfg.addrWidth)
  | .busEvent word => match decodeEvent word with
    | .ok _ => true
    | .error _ => false

/-- A turn that issues an INIT word (`OP` 1). -/
def Turn.issuesInit : Turn → Bool
  | .controller => false
  | .issue _ word _ _ => decide (opOf word = 1)
  | .receive _ => false
  | .load _ _ _ => false
  | .store _ _ _ => false
  | .busEvent _ => false

/-- A turn that issues a command. -/
def Turn.issues : Turn → Bool
  | .controller => false
  | .issue _ _ _ _ => true
  | .receive _ => false
  | .load _ _ _ => false
  | .store _ _ _ => false
  | .busEvent _ => false

/-- The run has ended (60_exceptions.md R227): no operation in flight, no command outstanding, no command to come. -/
def State.ended (s : State) : Bool :=
  decide (s.phase = .idle) && s.callers.all (fun p => !p.outstanding) && s.agenda.all (fun t => !t.issues)

/-- A run about which a claim may be stated (60_exceptions.md R227): it has ended with `REFUSED` = 0. -/
def State.claimable (s : State) : Bool := s.ended && s.refused == none

/-- The device a command addresses: its `DEV` field or `CURDEV` (42_write.md R140, R141; 43_read.md R160, R161; 44_registry_diag.md R191). -/
def State.deviceOf (s : State) : Instr → Option DevId
  | .init d => some d
  | .write d _ _ _ => some d
  | .writec _ _ _ => some s.curdev
  | .read d _ _ _ => some d
  | .readc _ _ _ => some s.curdev
  | .geterr => none
  | .begin _ _ _ _ _ _ => none
  | .tx _ _ => none
  | .rx _ _ => none
  | .clrstop _ => none
  | .sample _ _ _ => none
  | .config _ _ => none

/-- Device `d` is known and its bus initialised. -/
def State.busReady (s : State) (d : DevId) : Bool :=
  match s.cfg.devmap[d.toNat]? with
  | some b => s.busInit b
  | none => false

/-- A read of this length does not fit the buffer on the command port, or the buffer not the address space (20_memory.md R52). -/
def State.overlong (s : State) : Option Byte → Bool
  | some l => decide (2 ^ s.cfg.addrWidth < s.cmdBuf + s.cmdCap) || decide (s.cmdCap < l.toNat)
  | none => false

/-- Every reason of the table of 60_exceptions.md R214 that speaks against the command `i` on device `d`, in the
order of R215 from check 3 on. -/
def State.objections (s : State) (i : Instr) (d : DevId) : List RefuseReason :=
  (if s.phase ≠ .idle then [.busy] else []) ++
  (if s.cfg.numDevices ≤ d.toNat then [.unknownDevice] else []) ++
  (if i.isTransaction = true ∧ s.busReady d = false then [.busUninit] else []) ++
  (if i.readLength = some 0 ∧ s.cfg.zeroLenPolicy = .refuse then [.zeroLength] else []) ++
  (if s.overlong i.readLength = true then [.buffer] else [])

end Sys2Proof.Machine
end

