-- ==== Sys2Proof/Certificates/Slice0/Obligations.lean ====
section
/-! DEFINITION. The statements about the controller, each formalising the rules of spec/ its docstring names. A statement
about `controllerStep` says what the CONTROLLER does in one step of its own; `ControllerMovesOnItsTurn` says when `step` is
that step. -/

open Sys2Proof Sys2Proof.Machine

/-! ### Encoding -/

/-- The seven words of 30_encoding.md R86, both ways. -/
def Obligations.CommandWordExamples : Prop :=
  ∀ p ∈ ([(.init 0, 0x10000000), (.write 0 0x68 0x75 0x01, 0x20687501), (.writec 0x68 0x75 0x01, 0x30687501),
      (.read 0 0x68 0x3B 6, 0x40683B06), (.readc 0x68 0x3B 6, 0x50683B06), (.geterr, 0x60000000),
      (.write 1 0x7F 0xFF 0xFF, 0x217FFFFF)] : List (Instr × Word)),
    encode p.1 = p.2 ∧ decodeCommand p.2 = .ok p.1 ∧ decode p.2 = .ok p.1

/-- The event words given as examples by 41_bus_interface.md R120 to R125, 43_read.md R163, R165 and 44_registry_diag.md R192. -/
def Obligations.EventWordExamples : Prop :=
  ∀ p ∈ ([(.sample 0 .txReady 1, 0xC0100001), (.begin 0 .reload 1 .w 1 0xD0, 0x802001D0),
      (.begin 0 .autoEnd 0 .w 1 0xD0, 0x804001D0), (.begin 0 .softEnd 1 .w 1 0xD0, 0x80A001D0),
      (.begin 0 .autoEnd 1 .r 6 0xD0, 0x807006D0), (.tx 0 0x75, 0x90000075), (.rx 0 0x10, 0xA0000010),
      (.clrstop 0, 0xB0000000), (.config 1 1, 0xD1000001)] : List (Instr × Word)),
    encode p.1 = p.2 ∧ decodeEvent p.2 = .ok p.1 ∧ decode p.2 = .ok p.1

/-- Decoding the word of any instruction gives the instruction, every field at every value (30_encoding.md R70 to R83). -/
def Obligations.DecodeOfEncode : Prop := ∀ i : Instr, decode (encode i) = .ok i

/-- A word that decodes has one meaning: encoding that instruction gives the word back, so no word with a reserved bit set
decodes (30_encoding.md R71, R76, R79). -/
def Obligations.EncodeOfDecode : Prop := ∀ (w : Word) (i : Instr), decode w = .ok i → encode i = w

/-- The command decoder (30_encoding.md R83 with R76), in arithmetic on the word: which words are refused with which reason, and that every
other word is a command word with its fields as encoded. -/
def Obligations.CommandDecoderTotal : Prop :=
  ∀ w : Word,
    (decodeCommand w = .error .reservedOp ↔ w.toNat / 2 ^ 28 = 0 ∨ 7 ≤ w.toNat / 2 ^ 28) ∧
    (decodeCommand w = .error .reservedField ↔
      (w.toNat / 2 ^ 28 = 1 ∧ w.toNat % 2 ^ 24 ≠ 0) ∨
      ((w.toNat / 2 ^ 28 = 2 ∨ w.toNat / 2 ^ 28 = 4) ∧ w.toNat / 2 ^ 23 % 2 ≠ 0) ∨
      ((w.toNat / 2 ^ 28 = 3 ∨ w.toNat / 2 ^ 28 = 5) ∧ (w.toNat / 2 ^ 23 % 2 ≠ 0 ∨ w.toNat / 2 ^ 24 % 16 ≠ 0)) ∨
      (w.toNat / 2 ^ 28 = 6 ∧ w.toNat % 2 ^ 28 ≠ 0)) ∧
    (decodeCommand w = .error .reservedOp ∨ decodeCommand w = .error .reservedField ∨
      ∃ i, decodeCommand w = .ok i ∧ i.isCommand = true ∧ encode i = w)

/-- The event decoder accepts exactly the words of event instructions, and calls a kind reserved exactly outside 8 to 13
(30_encoding.md R78, R79, R82). -/
def Obligations.EventDecoderTotal : Prop :=
  ∀ w : Word,
    ((∃ i, decodeEvent w = .ok i) ↔ ∃ i : Instr, i.isCommand = false ∧ encode i = w) ∧
    (decodeEvent w = .error .reservedKind ↔ w.toNat / 2 ^ 28 < 8 ∨ 13 < w.toNat / 2 ^ 28)

/-! ### Reset -/

/-- What 70_reset_and_hazards.md R240 gives a value, under every configuration; the registers that rule leaves without a value
(log entry 2) are not named. -/
def Obligations.ResetValues : Prop :=
  ∀ cfg : Params,
    let s := State.resetWith cfg
    s.errcnt = 0 ∧ s.curdev = 0 ∧ s.phase = .idle ∧ s.refused = none ∧ s.hist = [] ∧
    (∀ b, s.busInit b = false) ∧ (∀ c, s.awaiting c = false)

/-- The machine after reset meets the invariant, under every configuration within the ranges of 00_scope.md R7; the configuration
`State.reset` takes (log entry 1) is one. -/
def Obligations.ResetMeetsInvariant : Prop :=
  (∀ cfg : Params, cfg.wf = true → (State.resetWith cfg).Inv) ∧ State.reset.Inv

/-! ### Steps -/

/-- The issue turn of a caller that is free runs the decoded command in the state with the word and its side operands on the command
port (10_state.md R36; 30_encoding.md R73). The agenda is the model's schedule (log entry 5). -/
def Obligations.StepRunsIssuedCommand : Prop :=
  ∀ (s : State) (c : Nat) (p : CallerPort) (w : Word) (buf cap : Nat) (rest : List Turn) (i : Instr),
    s.agenda = .issue c w buf cap :: rest → s.callers[c]? = some p → p.outstanding = false →
    decodeCommand w = .ok i →
    step s = exec i { s with
      agenda := rest, cmdCaller := c, cmdWord := w, cmdBuf := buf % 2 ^ s.cfg.addrWidth, cmdCap := cap }

/-- A word that the command decoder refuses sets the sticky mark, keeps the first reason, and changes nothing else but the command port's inputs
(30_encoding.md R76; 60_exceptions.md R214). -/
def Obligations.StepRefusesUndecodableWord : Prop :=
  ∀ (s : State) (c : Nat) (p : CallerPort) (w : Word) (buf cap : Nat) (rest : List Turn) (r : RefuseReason),
    s.agenda = .issue c w buf cap :: rest → s.callers[c]? = some p → p.outstanding = false →
    decodeCommand w = .error r →
    step s = .next { s with
      agenda := rest, cmdCaller := c, cmdWord := w, cmdBuf := buf % 2 ^ s.cfg.addrWidth, cmdCap := cap
      refused := some (s.refused.getD r) }

/-- An event word placed on the bus interface runs its instruction, and a word that is no event word faults by name (model's choice, log entries
7 and 8; 30_encoding.md R79). -/
def Obligations.StepRunsEventWord : Prop :=
  ∀ (s : State) (w : Word) (rest : List Turn), s.agenda = .busEvent w :: rest →
    (∀ i, decodeEvent w = .ok i → step s = exec i { s with agenda := rest }) ∧
    (∀ e, decodeEvent w = .error e → step s = .fault (.reservedEvent e))

/-- A caller that waits for its response issues nothing and accesses no memory: its turn passes (10_state.md R36; log entry 5). -/
def Obligations.WaitingCallerDoesNothing : Prop :=
  ∀ (s : State) (c : Nat) (p : CallerPort) (a : Turn) (rest : List Turn),
    s.agenda = a :: rest → s.callers[c]? = some p → p.outstanding = true →
    (∃ w buf cap, a = .issue c w buf cap) ∨ (∃ addr n, a = .load c addr n) ∨ (∃ addr v, a = .store c addr v) →
    step s = .next { s with agenda := rest }

/-- A step is the controller's step on the controller's turn, and whenever no turn is left (10_state.md R20; log entry 5). -/
def Obligations.ControllerMovesOnItsTurn : Prop :=
  ∀ s : State,
    (s.agenda = [] → step s = s.controllerStep) ∧
    (∀ rest, s.agenda = .controller :: rest → step s = ({ s with agenda := rest }).controllerStep)

/-- In IDLE the controller waits for a command: its step changes nothing (70_reset_and_hazards.md R243). -/
def Obligations.IdleControllerWaits : Prop :=
  ∀ s : State, s.phase = .idle → s.controllerStep = .next s

/-! ### Commands -/

/-- An accepted INIT (44_registry_diag.md R192): every write it makes, its CONFIG event, its response with no value, and
nothing else. -/
def Obligations.InitCompletes : Prop :=
  ∀ (s : State) (d : DevId) (b : BusId) (o : Bit) (h : BusHandle),
    s.phase = .idle → s.cfg.devmap[d.toNat]? = some b → s.cfg.overclock[b.toNat]? = some o →
    s.buses[b.toNat]? = some h →
    ∃ t, exec (.init d) s = .next t ∧
      t = { s with
        curdev := d
        buses := t.buses
        hist := s.hist ++ [.event (encode (.config b o))]
        callers := s.callers.modify s.cmdCaller fun p => { p with response := some .noValue } } ∧
      t.buses[b.toNat]? = some ⟨true, if o = 1 then s.cfg.timingOverclock else s.cfg.timingStandard⟩ ∧
      (∀ n, n ≠ b.toNat → t.buses[n]? = s.buses[n]?) ∧ t.buses.length = s.buses.length

/-- GETERR (44_registry_diag.md R195): in every state it answers `ERRCNT` and changes nothing but its caller's response; its encoding
is the one word 0x60000000. -/
def Obligations.GeterrCompletes : Prop :=
  (∀ s : State, exec .geterr s = .next { s with
    callers := s.callers.modify s.cmdCaller fun p => { p with response := some (.value s.errcnt), rspValue := s.errcnt } }) ∧
  (∀ w : Word, decodeCommand w = .ok .geterr ↔ w = 0x60000000)

/-- An accepted WRITE (42_write.md R140): the transaction registers, the first phase, and the caller left waiting. -/
def Obligations.WriteCompletes : Prop :=
  ∀ (s : State) (d : DevId) (a : Addr7) (r v : Byte) (b : BusId),
    s.phase = .idle → s.cfg.devmap[d.toNat]? = some b → s.busInit b = true →
    ∃ t, exec (.write d a r v) s = .next t ∧
      t = { s with
        tbus := b, tsaddr := t.tsaddr, treg := r, tdata := v, tcaller := s.cmdCaller
        phase := .wBusfree, stage := .entry
        callers := s.callers.modify s.cmdCaller fun p => { p with outstanding := true, response := none } } ∧
      t.tsaddr.toNat = 2 * a.toNat

/-- An accepted WRITEC (42_write.md R141): as WRITE, on the bus of `CURDEV`. -/
def Obligations.WritecCompletes : Prop :=
  ∀ (s : State) (a : Addr7) (r v : Byte) (b : BusId),
    s.phase = .idle → s.cfg.devmap[s.curdev.toNat]? = some b → s.busInit b = true →
    ∃ t, exec (.writec a r v) s = .next t ∧
      t = { s with
        tbus := b, tsaddr := t.tsaddr, treg := r, tdata := v, tcaller := s.cmdCaller
        phase := .wBusfree, stage := .entry
        callers := s.callers.modify s.cmdCaller fun p => { p with outstanding := true, response := none } } ∧
      t.tsaddr.toNat = 2 * a.toNat

/-- An accepted READ (43_read.md R160), under either `ZERO_LEN_POLICY` (R172): the transaction registers, the buffer from the side
operands, the first phase, and the caller left waiting. -/
def Obligations.ReadCompletes : Prop :=
  ∀ (s : State) (d : DevId) (a : Addr7) (r l : Byte) (b : BusId),
    s.phase = .idle → s.cfg.devmap[d.toNat]? = some b → s.busInit b = true →
    (l ≠ 0 ∨ s.cfg.zeroLenPolicy = .source) →
    s.cmdBuf + s.cmdCap ≤ 2 ^ s.cfg.addrWidth → l.toNat ≤ s.cmdCap →
    ∃ t, exec (.read d a r l) s = .next t ∧
      t = { s with
        tbus := b, tsaddr := t.tsaddr, treg := r, tcaller := s.cmdCaller
        tlen := l, toff := 0, trem := l, tbuf := s.cmdBuf, tcap := s.cmdCap
        phase := .rBusfree, stage := .entry
        callers := s.callers.modify s.cmdCaller fun p => { p with outstanding := true, response := none } } ∧
      t.tsaddr.toNat = 2 * a.toNat

/-- An accepted READC (43_read.md R161): as READ, on the bus of `CURDEV`. -/
def Obligations.ReadcCompletes : Prop :=
  ∀ (s : State) (a : Addr7) (r l : Byte) (b : BusId),
    s.phase = .idle → s.cfg.devmap[s.curdev.toNat]? = some b → s.busInit b = true →
    (l ≠ 0 ∨ s.cfg.zeroLenPolicy = .source) →
    s.cmdBuf + s.cmdCap ≤ 2 ^ s.cfg.addrWidth → l.toNat ≤ s.cmdCap →
    ∃ t, exec (.readc a r l) s = .next t ∧
      t = { s with
        tbus := b, tsaddr := t.tsaddr, treg := r, tcaller := s.cmdCaller
        tlen := l, toff := 0, trem := l, tbuf := s.cmdBuf, tcap := s.cmdCap
        phase := .rBusfree, stage := .entry
        callers := s.callers.modify s.cmdCaller fun p => { p with outstanding := true, response := none } } ∧
      t.tsaddr.toNat = 2 * a.toNat

/-- BEGIN, TX, RX, CLRSTOP, SAMPLE and CONFIG complete in every state: the event word joins the history and nothing else changes
(41_bus_interface.md R120 to R125; 44_registry_diag.md R193). The drawn value of an RX or a SAMPLE is the word's, for every value (log entry 9). -/
def Obligations.BusEventsComplete : Prop :=
  ∀ (s : State) (b : BusId) (e : EndMode) (st o v : Bit) (d : Dir) (n sa x : Byte) (f : Flag),
    exec (.begin b e st d n sa) s = .next { s with hist := s.hist ++ [.event (encode (.begin b e st d n sa))] } ∧
    exec (.tx b x) s = .next { s with hist := s.hist ++ [.event (encode (.tx b x))] } ∧
    exec (.rx b x) s = .next { s with hist := s.hist ++ [.event (encode (.rx b x))] } ∧
    exec (.clrstop b) s = .next { s with hist := s.hist ++ [.event (encode (.clrstop b))] } ∧
    exec (.sample b f v) s = .next { s with hist := s.hist ++ [.event (encode (.sample b f v))] } ∧
    exec (.config b o) s = .next { s with hist := s.hist ++ [.event (encode (.config b o))] }

/-! ### Refusals -/

/-- Of all the reasons against a command the first in the order of 60_exceptions.md R215 is the one recorded, in a state that differs only in the
mark; a command with no reason against it is accepted and the mark stays. That the refusal is a next state is log entry 6. MODEL'S CHOICE (log
entry 16): for WRITEC and READC the list also holds REF_UNKNOWN_DEVICE where `CURDEV` is no known device, a state that 42_write.md R141 and
43_read.md R161 say cannot occur and for which READC has no such check in R161. -/
def Obligations.FirstObjectionIsTheReason : Prop :=
  ∀ (i : Instr) (s : State) (d : DevId), s.deviceOf i = some d →
    (∀ r l, s.objections i d = r :: l → exec i s = .next { s with refused := some (s.refused.getD r) }) ∧
    (s.objections i d = [] → ∃ t, exec i s = .next t ∧ t.refused = s.refused ∧
      (i.isTransaction = true → t.phase ≠ .idle ∧ t.tcaller = s.cmdCaller) ∧ (i = .init d → t.curdev = d))

/-- The step that sets the mark changes no register, emits no event and drives no response (60_exceptions.md R214). -/
def Obligations.RefusalChangesOnlyTheMark : Prop :=
  ∀ s t : State, step s = .next t → t.refused ≠ s.refused →
    s.refused = none ∧
    t = { s with
      refused := t.refused, agenda := t.agenda
      cmdCaller := t.cmdCaller, cmdWord := t.cmdWord, cmdBuf := t.cmdBuf, cmdCap := t.cmdCap }

/-- The mark is never cleared and keeps its first reason (10_state.md R33). -/
def Obligations.RefusedMarkIsSticky : Prop :=
  ∀ (s t : State) (r : RefuseReason), step s = .next t → s.refused = some r → t.refused = some r

/-- While an operation is in flight INIT, WRITE, WRITEC, READ and READC are refused with REF_BUSY on every bus, and GETERR is not refused
(60_exceptions.md R221; 10_state.md R39). -/
def Obligations.BusyRefusesAllButGeterr : Prop :=
  ∀ (i : Instr) (s : State), s.phase ≠ .idle → i.isCommand = true →
    (i ≠ .geterr → exec i s = .next { s with refused := some (s.refused.getD .busy) }) ∧
    (i = .geterr → ∃ t, exec i s = .next t ∧ t.refused = s.refused ∧ t.phase = s.phase)

/-! ### The registry -/

/-- After an accepted `INIT d` and any number of steps in whose turns no INIT is issued, WRITEC is WRITE on `d` and READC is READ on `d`, refusals
included (42_write.md R152; 43_read.md R174). What is issued after those steps, an INIT too, is no matter. -/
def Obligations.ShorthandAfterInit : Prop :=
  ∀ (s t u : State) (d : DevId) (b : BusId) (n : Nat) (a : Addr7) (r v : Byte),
    s.phase = .idle → s.cfg.devmap[d.toNat]? = some b → exec (.init d) s = .next t →
    (∀ x ∈ t.agenda.take n, x.issuesInit = false) → runSteps n t = .next u →
    exec (.writec a r v) u = exec (.write d a r v) u ∧ exec (.readc a r v) u = exec (.read d a r v) u

/-- Only an INIT writes `CURDEV`, with a known device, while no operation is in flight (10_state.md R23). -/
def Obligations.CurdevChangesOnlyByInit : Prop :=
  ∀ s t : State, step s = .next t → t.curdev ≠ s.curdev →
    s.phase = .idle ∧ t.curdev.toNat < s.cfg.numDevices ∧
    ∃ c w buf cap rest, s.agenda = .issue c w buf cap :: rest ∧ decodeCommand w = .ok (.init t.curdev)

/-- `BUSINIT[b]` is never cleared, and is set only by the INIT of a device mapped to `b` (10_state.md R24). -/
def Obligations.BusinitIsNeverCleared : Prop :=
  ∀ (s t : State) (b : BusId), step s = .next t →
    (s.busInit b = true → t.busInit b = true) ∧
    (s.busInit b = false → t.busInit b = true →
      s.cfg.devmap[t.curdev.toNat]? = some b ∧
      ∃ c w buf cap rest, s.agenda = .issue c w buf cap :: rest ∧ decodeCommand w = .ok (.init t.curdev))

/-- A BusHandle changes only in the INIT of a device mapped to its bus, while no operation is in flight, and then holds the profile that
`OVERCLOCK` selects (10_state.md R25). -/
def Obligations.ProfileChangesOnlyByInit : Prop :=
  ∀ (s t : State) (n : Nat), step s = .next t → t.buses[n]? ≠ s.buses[n]? →
    s.phase = .idle ∧ (∃ b, s.cfg.devmap[t.curdev.toNat]? = some b ∧ b.toNat = n) ∧
    t.buses[n]? = some ⟨true, if s.cfg.overclock[n]? = some 1 then s.cfg.timingOverclock else s.cfg.timingStandard⟩ ∧
    ∃ c w buf cap rest, s.agenda = .issue c w buf cap :: rest ∧ decodeCommand w = .ok (.init t.curdev)

/-- No step changes the configuration (10_state.md R35). -/
def Obligations.ConfigurationNeverChanges : Prop := ∀ s t : State, step s = .next t → t.cfg = s.cfg

/-! ### The sequencer -/

/-- The ENTRY steps of the write's waiting phases (42_write.md R142 to R146): the entry action, the countdown armed with `LONG_BUDGET`
= 10 * `SHORT_BUDGET`, and POLL. -/
def Obligations.WriteEntrySteps : Prop :=
  ∀ s : State, s.stage = .entry →
    (s.phase = .wBusfree →
      s.controllerStep = .next { s with ctr := 10 * s.cfg.shortBudget, stage := .poll }) ∧
    (s.phase = .wAddr →
      s.controllerStep = .next { s with
        hist := s.hist ++ [.event (encode (.begin s.tbus .reload 1 .w 1 s.tsaddr))]
        ctr := 10 * s.cfg.shortBudget, stage := .poll }) ∧
    (s.phase = .wReg →
      s.controllerStep = .next { s with
        hist := s.hist ++ [.event (encode (.tx s.tbus s.treg))]
        ctr := 10 * s.cfg.shortBudget, stage := .poll }) ∧
    (s.phase = .wDatacfg →
      s.controllerStep = .next { s with
        hist := s.hist ++ [.event (encode (.begin s.tbus .autoEnd 0 .w 1 s.tsaddr))]
        ctr := 10 * s.cfg.shortBudget, stage := .poll }) ∧
    (s.phase = .wData →
      s.controllerStep = .next { s with
        hist := s.hist ++ [.event (encode (.tx s.tbus s.tdata))]
        ctr := 10 * s.cfg.shortBudget, stage := .poll })

/-- The ENTRY steps of the read's waiting phases (43_read.md R162 to R164, R166, R168), with the budget of each (40_timer.md R107). -/
def Obligations.ReadEntrySteps : Prop :=
  ∀ s : State, s.stage = .entry →
    (s.phase = .rBusfree ∨ s.phase = .rStop →
      s.controllerStep = .next { s with ctr := 10 * s.cfg.shortBudget, stage := .poll }) ∧
    (s.phase = .rAddr →
      s.controllerStep = .next { s with
        hist := s.hist ++ [.event (encode (.begin s.tbus .softEnd 1 .w 1 s.tsaddr))]
        ctr := if s.cfg.readSetup = .short then s.cfg.shortBudget else 10 * s.cfg.shortBudget
        stage := .poll }) ∧
    (s.phase = .rReg →
      s.controllerStep = .next { s with
        hist := s.hist ++ [.event (encode (.tx s.tbus s.treg))]
        ctr := if s.cfg.readSetup = .short then s.cfg.shortBudget else 10 * s.cfg.shortBudget
        stage := .poll }) ∧
    (s.phase = .rRecv →
      s.controllerStep = .next { s with ctr := s.cfg.shortBudget, stage := .poll })

/-- W_CLRSTOP and R_CLRSTOP (42_write.md R147; 43_read.md R169): CLRSTOP and `Complete(1)` in one step, delivered to `TCALLER` (60_exceptions.md R212). -/
def Obligations.ClearStopCompletes : Prop :=
  ∀ s : State, s.stage = .entry → (s.phase = .wClrstop ∨ s.phase = .rClrstop) →
    s.controllerStep = .next { s with
      hist := s.hist ++ [.event (encode (.clrstop s.tbus))]
      phase := .idle
      callers := s.callers.modify s.tcaller fun p => { p with response := some (.ok 1), rspOk := 1 } }

/-- R_READCFG (43_read.md R165): the repeated start for `TLEN` bytes, then the receive loop, or R_STOP when nothing is to be received. -/
def Obligations.ReadStartsBurst : Prop :=
  ∀ s : State, s.stage = .entry → s.phase = .rReadcfg →
    s.controllerStep = .next { s with
      hist := s.hist ++ [.event (encode (.begin s.tbus .autoEnd 1 .r s.tlen s.tsaddr))]
      phase := if s.trem.toNat > 0 then .rRecv else .rStop
      stage := .entry }

/-- R_RXBYTE (43_read.md R167), for whatever byte the bus answers: RX, the byte at `TBUF + TOFF` and no other byte, the offset and the
remaining count, and the loop's next phase. Outside the address space (where R160 lets no read arrive) the step faults by name. -/
def Obligations.ReceivedByteIsStored : Prop :=
  ∀ s : State, s.stage = .entry → s.phase = .rRxbyte → s.mem.wf = true →
    (s.tbuf + s.toff.toNat < 2 ^ s.cfg.addrWidth →
      ∃ t, s.controllerStep = .next t ∧
        t = { s.tookByte with
          hist := s.hist ++ [.event (encode (.rx s.tbus s.drawByte)), .memw (s.tbuf + s.toff.toNat) s.drawByte]
          mem := t.mem, toff := s.toff + 1, trem := s.trem - 1
          phase := if s.trem - 1 = 0 then .rStop else .rRecv } ∧
        t.mem.read (s.tbuf + s.toff.toNat) = s.drawByte ∧
        (∀ a, a ≠ s.tbuf + s.toff.toNat → t.mem.read a = s.mem.read a) ∧ t.mem.wf = true) ∧
    (2 ^ s.cfg.addrWidth ≤ s.tbuf + s.toff.toNat → s.controllerStep = .fault .addressOutsideMemory)

/-- A sample that satisfies its phase's wait moves to the successor's ENTRY and leaves `CTR` alone (40_timer.md R101, R102; the flags, values and
successors of 30_encoding.md R80). -/
def Obligations.SatisfiedSampleEndsWait : Prop :=
  ∀ (s : State) (p : Phase) (f : Flag) (want : Bit) (q : Phase),
    (p, f, want, q) ∈ ([(.wBusfree, .busBusy, 0, .wAddr), (.wAddr, .txReady, 1, .wReg), (.wReg, .tcReload, 1, .wDatacfg),
      (.wDatacfg, .txReady, 1, .wData), (.wData, .stop, 1, .wClrstop), (.rBusfree, .busBusy, 0, .rAddr),
      (.rAddr, .txReady, 1, .rReg), (.rReg, .tc, 1, .rReadcfg), (.rRecv, .rxReady, 1, .rRxbyte),
      (.rStop, .stop, 1, .rClrstop)] : List (Phase × Flag × Bit × Phase)) →
    s.phase = p → s.stage = .poll → s.drawBit = want →
    s.controllerStep = .next { s.tookBit with
      hist := s.hist ++ [.event (encode (.sample s.tbus f want))], phase := q, stage := .entry }

/-- A sample that fails with samples left counts `CTR` down by one and changes nothing else (40_timer.md R101, R103). -/
def Obligations.FailedSampleCountsDown : Prop :=
  ∀ (s : State) (p : Phase) (f : Flag) (bad : Bit),
    (p, f, bad) ∈ ([(.wBusfree, .busBusy, 1), (.wAddr, .txReady, 0), (.wReg, .tcReload, 0), (.wDatacfg, .txReady, 0),
      (.wData, .stop, 0), (.rBusfree, .busBusy, 1), (.rAddr, .txReady, 0), (.rReg, .tc, 0), (.rRecv, .rxReady, 0),
      (.rStop, .stop, 0)] : List (Phase × Flag × Bit)) →
    s.phase = p → s.stage = .poll → s.drawBit = bad → 2 ≤ s.ctr →
    s.controllerStep = .next { s.tookBit with
      hist := s.hist ++ [.event (encode (.sample s.tbus f bad))], ctr := s.ctr - 1 }

/-- The failed sample that brings `CTR` to 0 is `Timeout()` in the same step (40_timer.md R104, R105): `ERRCNT` plus one modulo `2 ^ ERR_WIDTH`,
`RSP_OK` = 0 to `TCALLER`, IDLE, and no event but the sample. -/
def Obligations.ExhaustedWaitTimesOut : Prop :=
  ∀ (s : State) (p : Phase) (f : Flag) (bad : Bit),
    (p, f, bad) ∈ ([(.wBusfree, .busBusy, 1), (.wAddr, .txReady, 0), (.wReg, .tcReload, 0), (.wDatacfg, .txReady, 0),
      (.wData, .stop, 0), (.rBusfree, .busBusy, 1), (.rAddr, .txReady, 0), (.rReg, .tc, 0), (.rRecv, .rxReady, 0),
      (.rStop, .stop, 0)] : List (Phase × Flag × Bit)) →
    s.phase = p → s.stage = .poll → s.drawBit = bad → s.ctr = 1 →
    s.controllerStep = .next { s.tookBit with
      hist := s.hist ++ [.event (encode (.sample s.tbus f bad))]
      ctr := 0
      errcnt := (s.errcnt + 1) % 2 ^ s.cfg.errWidth
      phase := .idle
      callers := s.callers.modify s.tcaller fun p => { p with response := some (.ok 0), rspOk := 0 } }

/-- The sample count of one wait (40_timer.md R112), from any armed wait with `CTR` = `B` and no other turn to take. If the `k`-th answer is the
first that satisfies it and `k <= B`, the wait takes exactly `k` samples and succeeds; if the first `B` answers all fail, it takes exactly `B` and
the operation times out. -/
def Obligations.WaitSampleCount : Prop :=
  ∀ (s : State) (p : Phase) (f : Flag) (want bad : Bit) (q : Phase) (rest : List Bit),
    (p, f, want, bad, q) ∈ ([(.wBusfree, .busBusy, 0, 1, .wAddr), (.wAddr, .txReady, 1, 0, .wReg),
      (.wReg, .tcReload, 1, 0, .wDatacfg), (.wDatacfg, .txReady, 1, 0, .wData), (.wData, .stop, 1, 0, .wClrstop),
      (.rBusfree, .busBusy, 0, 1, .rAddr), (.rAddr, .txReady, 1, 0, .rReg), (.rReg, .tc, 1, 0, .rReadcfg),
      (.rRecv, .rxReady, 1, 0, .rRxbyte), (.rStop, .stop, 1, 0, .rClrstop)] : List (Phase × Flag × Bit × Bit × Phase)) →
    s.phase = p → s.stage = .poll → s.agenda = [] → 1 ≤ s.ctr →
    (∀ k, 1 ≤ k → k ≤ s.ctr → s.sampleScript = List.replicate (k - 1) bad ++ want :: rest →
      runSteps k s = .next { s with
        sampleScript := rest
        hist := s.hist ++ List.replicate (k - 1) (.event (encode (.sample s.tbus f bad))) ++
          [.event (encode (.sample s.tbus f want))]
        ctr := s.ctr - (k - 1), phase := q, stage := .entry }) ∧
    (s.sampleScript = List.replicate s.ctr bad ++ rest →
      runSteps s.ctr s = .next { s with
        sampleScript := rest
        hist := s.hist ++ List.replicate s.ctr (.event (encode (.sample s.tbus f bad)))
        ctr := 0
        errcnt := (s.errcnt + 1) % 2 ^ s.cfg.errWidth
        phase := .idle
        callers := s.callers.modify s.tcaller fun p => { p with response := some (.ok 0), rspOk := 0 } })

/-- The successful write in which every wait is satisfied at its first sample (42_write.md R151): ten events in eleven controller steps, and the
caller answered; `CTR` keeps the last wait's budget (60_exceptions.md R212, log entry 20). -/
def Obligations.ImmediateWriteTrace : Prop :=
  ∀ (s : State) (rest : List Bit),
    s.phase = .wBusfree → s.stage = .entry → s.agenda = [] → s.sampleScript = [0, 1, 1, 1, 1] ++ rest →
    runSteps 11 s = .next { s with
      sampleScript := rest
      hist := s.hist ++ ([.sample s.tbus .busBusy 0, .begin s.tbus .reload 1 .w 1 s.tsaddr, .sample s.tbus .txReady 1,
        .tx s.tbus s.treg, .sample s.tbus .tcReload 1, .begin s.tbus .autoEnd 0 .w 1 s.tsaddr,
        .sample s.tbus .txReady 1, .tx s.tbus s.tdata, .sample s.tbus .stop 1, .clrstop s.tbus] : List Instr).map
          (fun i => .event (encode i))
      ctr := 10 * s.cfg.shortBudget
      phase := .idle
      callers := s.callers.modify s.tcaller fun p => { p with response := some (.ok 1), rspOk := 1 } }

/-- The successful read of any length whose waits are all satisfied at their first sample (43_read.md R175): the events in order, the received bytes
in the buffer in order of reception, no other byte changed, `ERRCNT` unchanged, `RSP_OK` = 1, in `10 + 3 * LEN` steps. -/
def Obligations.ImmediateReadTrace : Prop :=
  ∀ (s : State) (bytes : List Byte) (bits : List Bit) (more : List Byte),
    s.phase = .rBusfree → s.stage = .entry → s.agenda = [] → s.mem.wf = true →
    bytes.length = s.tlen.toNat → bytes ≠ [] → s.toff = 0 → s.trem = s.tlen →
    s.tbuf + s.tlen.toNat ≤ 2 ^ s.cfg.addrWidth →
    s.sampleScript = [0, 1, 1] ++ List.replicate bytes.length 1 ++ [1] ++ bits → s.rxScript = bytes ++ more →
    ∃ t, runSteps (10 + 3 * bytes.length) s = .next t ∧
      t.hist = s.hist ++
        ([.sample s.tbus .busBusy 0, .begin s.tbus .softEnd 1 .w 1 s.tsaddr, .sample s.tbus .txReady 1,
          .tx s.tbus s.treg, .sample s.tbus .tc 1, .begin s.tbus .autoEnd 1 .r s.tlen s.tsaddr] : List Instr).map
            (fun i => .event (encode i)) ++
        bytes.zipIdx.flatMap (fun v => [.event (encode (.sample s.tbus .rxReady 1)), .event (encode (.rx s.tbus v.1)),
          .memw (s.tbuf + v.2) v.1]) ++
        [.event (encode (.sample s.tbus .stop 1)), .event (encode (.clrstop s.tbus))] ∧
      (∀ i (h : i < bytes.length), t.mem.read (s.tbuf + i) = bytes[i]) ∧
      (∀ a, a < s.tbuf ∨ s.tbuf + bytes.length ≤ a → t.mem.read a = s.mem.read a) ∧
      t.errcnt = s.errcnt ∧ t.phase = .idle ∧ t.sampleScript = bits ∧ t.rxScript = more ∧
      t.callers = s.callers.modify s.tcaller fun p => { p with response := some (.ok 1), rspOk := 1 }

/-- A zero-length read (43_read.md R172): refused with nothing else changed under `REFUSE`; under `SOURCE` accepted, and with immediate answers it
goes from R_READCFG, with `NBYTES` = 0, straight to R_STOP and R_CLRSTOP, with no RX and no memory write. -/
def Obligations.ZeroLengthRead : Prop :=
  (∀ (s : State) (d : DevId) (a : Addr7) (r : Byte) (b : BusId),
    s.phase = .idle → s.cfg.devmap[d.toNat]? = some b → s.busInit b = true → s.cfg.zeroLenPolicy = .refuse →
    exec (.read d a r 0) s = .next { s with refused := some (s.refused.getD .zeroLength) }) ∧
  (∀ (s : State) (a : Addr7) (r : Byte) (b : BusId),
    s.phase = .idle → s.cfg.devmap[s.curdev.toNat]? = some b → s.busInit b = true → s.cfg.zeroLenPolicy = .refuse →
    exec (.readc a r 0) s = .next { s with refused := some (s.refused.getD .zeroLength) }) ∧
  (∀ (s : State) (rest : List Bit),
    s.phase = .rBusfree → s.stage = .entry → s.agenda = [] → s.tlen = 0 → s.trem = 0 →
    s.sampleScript = [0, 1, 1, 1] ++ rest →
    ∃ t, runSteps 10 s = .next t ∧
      t.hist = s.hist ++
        ([.sample s.tbus .busBusy 0, .begin s.tbus .softEnd 1 .w 1 s.tsaddr, .sample s.tbus .txReady 1,
          .tx s.tbus s.treg, .sample s.tbus .tc 1, .begin s.tbus .autoEnd 1 .r 0 s.tsaddr, .sample s.tbus .stop 1,
          .clrstop s.tbus] : List Instr).map (fun i => .event (encode i)) ∧
      t.mem = s.mem ∧ t.phase = .idle ∧ t.errcnt = s.errcnt)

/-! ### Whole operations, for every answer of the bus -/

/-- Every write ends within the bound of 40_timer.md R113, whatever the bus answers: with `RSP_OK` = 1 and `ERRCNT` unchanged, or with `RSP_OK` = 0
and `ERRCNT` plus one (42_write.md R148, R149); caller memory, `CURDEV`, the buses and the mark are unchanged. -/
def Obligations.WriteEndsWithinBound : Prop :=
  ∀ s : State, s.phase = .wBusfree → s.stage = .entry → s.agenda = [] → 1 ≤ s.cfg.shortBudget →
    ∃ k t, k ≤ 6 + 5 * (10 * s.cfg.shortBudget) ∧ runSteps k s = .next t ∧ t.phase = .idle ∧
      t.mem = s.mem ∧ t.curdev = s.curdev ∧ t.buses = s.buses ∧ t.refused = s.refused ∧
      ((t.errcnt = s.errcnt ∧
          t.callers = s.callers.modify s.tcaller fun p => { p with response := some (.ok 1), rspOk := 1 }) ∨
        (t.errcnt = (s.errcnt + 1) % 2 ^ s.cfg.errWidth ∧
          t.callers = s.callers.modify s.tcaller fun p => { p with response := some (.ok 0), rspOk := 0 }))

/-- Every read ends within the bound of 40_timer.md R113, whatever the bus answers. The bytes it received stand in order from `TBUF` on and are the
bytes its MEMW records name, no other byte changed (20_memory.md R57; 43_read.md R171); all `TLEN` of them arrived when `RSP_OK` = 1. -/
def Obligations.ReadEndsWithinBound : Prop :=
  ∀ s : State, s.phase = .rBusfree → s.stage = .entry → s.agenda = [] → 1 ≤ s.cfg.shortBudget → s.mem.wf = true →
    s.toff = 0 → s.trem = s.tlen → s.tbuf + s.tlen.toNat ≤ 2 ^ s.cfg.addrWidth →
    ∃ (k : Nat) (t : State) (bytes : List Byte) (new : List Record),
      k ≤ 6 + 2 * s.tlen.toNat + 2 * (10 * s.cfg.shortBudget) + 2 * s.cfg.readSetupBudget +
        s.tlen.toNat * s.cfg.shortBudget ∧
      runSteps k s = .next t ∧ t.phase = .idle ∧
      t.curdev = s.curdev ∧ t.buses = s.buses ∧ t.refused = s.refused ∧
      t.hist = s.hist ++ new ∧
      new.filterMap Record.written = bytes.zipIdx.map (fun v => (s.tbuf + v.2, v.1)) ∧
      (∀ i (h : i < bytes.length), t.mem.read (s.tbuf + i) = bytes[i]) ∧
      (∀ a, a < s.tbuf ∨ s.tbuf + bytes.length ≤ a → t.mem.read a = s.mem.read a) ∧
      ((bytes.length = s.tlen.toNat ∧ t.errcnt = s.errcnt ∧
          t.callers = s.callers.modify s.tcaller fun p => { p with response := some (.ok 1), rspOk := 1 }) ∨
        (bytes.length ≤ s.tlen.toNat ∧ t.errcnt = (s.errcnt + 1) % 2 ^ s.cfg.errWidth ∧
          t.callers = s.callers.modify s.tcaller fun p => { p with response := some (.ok 0), rspOk := 0 }))

/-! ### Invariants of every step -/

/-- Every step keeps the invariant: register widths, one BusHandle per bus, `CURDEV` known, caller memory canonical and inside the address space, the
operation in flight on an initialised bus with its caller waiting, the countdown in range, `TOFF + TREM = TLEN` (10_state.md R22 to R39; 40_timer.md R103). -/
def Obligations.StepKeepsInvariant : Prop := ∀ s t : State, s.Inv → step s = .next t → t.Inv

/-- From a state that meets the invariant, with a next turn that keeps to the event format and the address space, a step always gives a next
state: the named faults arise in no run the spec allows (10_state.md R38; 30_encoding.md R81). -/
def Obligations.NoFaultFromInvariant : Prop :=
  ∀ s : State, s.Inv → (∀ a ∈ s.agenda.head?, a.lawful s.cfg = true) → ∃ t, step s = .next t

/-- `ERRCNT` changes only in `Timeout()`, by one modulo `2 ^ ERR_WIDTH`, in the step that ends the operation with `RSP_OK` = 0 and logs one sample
(10_state.md R22; 44_registry_diag.md R197). -/
def Obligations.ErrcntChangesOnlyByTimeout : Prop :=
  ∀ s t : State, step s = .next t → t.errcnt ≠ s.errcnt →
    t.errcnt = (s.errcnt + 1) % 2 ^ s.cfg.errWidth ∧ s.phase ≠ .idle ∧ s.stage = .poll ∧ t.phase = .idle ∧
    t.callers = s.callers.modify s.tcaller (fun p => { p with response := some (.ok 0), rspOk := 0 }) ∧
    ∃ f v, t.hist = s.hist ++ [.event (encode (.sample s.tbus f v))]

/-- A controller step appends to the history, at most one event and one MEMW, every event on the operation's bus and well-formed when the address byte is
even (10_state.md R34; 41_bus_interface.md R121, R122, R129). -/
def Obligations.ControllerEventsOnOperationBus : Prop :=
  ∀ s t : State, s.controllerStep = .next t →
    ∃ new, t.hist = s.hist ++ new ∧ new.length ≤ 2 ∧
      ∀ w, .event w ∈ new → ∃ i : Instr, encode i = w ∧ i.isCommand = false ∧
        w.toNat / 2 ^ 24 % 16 = s.tbus.toNat ∧ (s.tsaddr.getLsbD 0 = false → i.wf = true)

/-- A POLL step takes exactly one sample (40_timer.md R101): one SAMPLE event with the answer drawn, and no other history item. -/
def Obligations.PollTakesOneSample : Prop :=
  ∀ s t : State, s.phase ≠ .idle → s.stage = .poll → s.controllerStep = .next t →
    ∃ f, t.hist = s.hist ++ [.event (encode (.sample s.tbus f s.drawBit))] ∧
      t.sampleScript = s.sampleScript.tail ∧ t.rxScript = s.rxScript

/-- While an operation is in flight no step, of the controller or of a caller, writes the registers its acceptance loaded. `PHASE` changes only in a
controller step: to a successor the phase table gives, or to IDLE, which only the ENTRY of W_CLRSTOP and R_CLRSTOP (`Complete(1)`) and a POLL of a waiting
phase (`Timeout()`) reach (10_state.md R27, R28; 40_timer.md R111; 60_exceptions.md R212). -/
def Obligations.OperationRegistersHold : Prop :=
  ∀ s t : State, step s = .next t → s.phase ≠ .idle →
    t.tbus = s.tbus ∧ t.tsaddr = s.tsaddr ∧ t.treg = s.treg ∧ t.tdata = s.tdata ∧ t.tlen = s.tlen ∧
    t.tbuf = s.tbuf ∧ t.tcap = s.tcap ∧ t.tcaller = s.tcaller ∧ t.curdev = s.curdev ∧ t.buses = s.buses ∧
    (t.phase ≠ s.phase →
      (s.agenda = [] ∨ s.agenda.head? = some .controller) ∧
      ((t.phase = .idle ∧ s.stage = .entry ∧ s.phase ∈ ([.wClrstop, .rClrstop] : List Phase)) ∨
        (t.phase = .idle ∧ s.stage = .poll ∧ s.phase ∈ ([.wBusfree, .wAddr, .wReg, .wDatacfg, .wData, .rBusfree, .rAddr,
          .rReg, .rRecv, .rStop] : List Phase)) ∨
        (s.stage = .entry ∧ (s.phase, t.phase) ∈ ([(.rReadcfg, .rRecv), (.rReadcfg, .rStop), (.rRxbyte, .rRecv),
          (.rRxbyte, .rStop)] : List (Phase × Phase))) ∨
        (s.stage = .poll ∧ (s.phase, t.phase) ∈ ([(.wBusfree, .wAddr), (.wAddr, .wReg), (.wReg, .wDatacfg),
          (.wDatacfg, .wData), (.wData, .wClrstop), (.rBusfree, .rAddr), (.rAddr, .rReg), (.rReg, .rReadcfg),
          (.rRecv, .rRxbyte), (.rStop, .rClrstop)] : List (Phase × Phase)))))

/-- A byte of caller memory changes only as the byte that R_RXBYTE receives, at `TBUF + TOFF`, or by a caller's own store (20_memory.md R56, R57). -/
def Obligations.MemoryChangesOnlyWhereWritten : Prop :=
  ∀ (s t : State) (a : Nat), step s = .next t → t.mem.read a ≠ s.mem.read a →
    (s.phase = .rRxbyte ∧ a = s.tbuf + s.toff.toNat) ∨ ∃ c v rest, s.agenda = .store c a v :: rest

/-! ### Frames -/

/-- Frame of WRITE, WRITEC, READ and READC: the transaction registers, `PHASE`, `STAGE`, the mark and the issuing caller's port may change; a write
leaves the read's registers and a read leaves `TDATA`; everything else, and every byte of caller memory, is as before (42_write.md R140; 43_read.md R160). -/
def Obligations.FrameOfTransactionCommands : Prop :=
  ∀ (i : Instr) (s t : State), i.isTransaction = true → exec i s = .next t →
    t = { s with
      tbus := t.tbus, tsaddr := t.tsaddr, treg := t.treg, tdata := t.tdata, tlen := t.tlen, toff := t.toff
      trem := t.trem, tbuf := t.tbuf, tcap := t.tcap, tcaller := t.tcaller, phase := t.phase, stage := t.stage
      refused := t.refused, callers := t.callers } ∧
    (∀ c, c ≠ s.cmdCaller → t.callers[c]? = s.callers[c]?) ∧
    (i.readLength = none → t.tlen = s.tlen ∧ t.toff = s.toff ∧ t.trem = s.trem ∧ t.tbuf = s.tbuf ∧ t.tcap = s.tcap) ∧
    (i.readLength ≠ none → t.tdata = s.tdata) ∧
    (∀ a, t.mem.read a = s.mem.read a)

/-- Frame of INIT and GETERR: INIT may change `CURDEV`, the BusHandles, the history, the mark and the issuing caller's port, GETERR only that port;
every byte of caller memory is as before (44_registry_diag.md R192, R195). -/
def Obligations.FrameOfInitAndGeterr : Prop :=
  (∀ (d : DevId) (s t : State), exec (.init d) s = .next t →
    t = { s with
      curdev := t.curdev, buses := t.buses, hist := t.hist, refused := t.refused, callers := t.callers } ∧
    (∀ c, c ≠ s.cmdCaller → t.callers[c]? = s.callers[c]?) ∧
    (∀ b : BusId, s.cfg.devmap[d.toNat]? ≠ some b → t.buses[b.toNat]? = s.buses[b.toNat]?) ∧
    (∀ a, t.mem.read a = s.mem.read a)) ∧
  (∀ s t : State, exec .geterr s = .next t →
    t = { s with callers := t.callers } ∧ (∀ c, c ≠ s.cmdCaller → t.callers[c]? = s.callers[c]?) ∧
    (∀ a, t.mem.read a = s.mem.read a))

/-- Frame of the six event instructions: only the history changes, by one item; every byte of caller memory is as before (41_bus_interface.md R120 to R125). -/
def Obligations.FrameOfBusEvents : Prop :=
  ∀ (i : Instr) (s t : State), i.isCommand = false → exec i s = .next t →
    t = { s with hist := t.hist } ∧ t.hist.length = s.hist.length + 1 ∧ t.hist.take s.hist.length = s.hist ∧
    (∀ a, t.mem.read a = s.mem.read a)

/-! ### Callers and draws -/

/-- The receive turn: a caller whose response was delivered goes on; one whose response was not keeps waiting; nothing else changes (10_state.md R36;
60_exceptions.md R220). -/
def Obligations.ResponseReleasesCaller : Prop :=
  ∀ (s : State) (c : Nat) (p : CallerPort) (rest : List Turn),
    s.agenda = .receive c :: rest → s.callers[c]? = some p →
    ∃ t, step s = .next t ∧ t = { s with agenda := rest, callers := t.callers } ∧
      t.callers[c]? = some { p with outstanding := p.outstanding && p.response == none } ∧
      (∀ d, d ≠ c → t.callers[d]? = s.callers[d]?)

/-- A free caller's read of caller memory returns the bytes at its addresses, the lowest first, and its store writes one byte and no other, with no
history record; outside the address space each faults by name (20_memory.md R51, R55, R61, R62). -/
def Obligations.CallerMemoryAccess : Prop :=
  ∀ (s : State) (c : Nat) (p : CallerPort) (rest : List Turn), s.callers[c]? = some p → p.outstanding = false →
    (∀ addr n, s.agenda = .load c addr n :: rest → addr + n ≤ 2 ^ s.cfg.addrWidth →
      ∃ t q, step s = .next t ∧ t = { s with agenda := rest, callers := t.callers } ∧ t.callers[c]? = some q ∧
        q = { p with seen := q.seen } ∧ q.seen.length = n ∧ (∀ i, i < n → q.seen[i]? = some (s.mem.read (addr + i))) ∧
        ∀ d, d ≠ c → t.callers[d]? = s.callers[d]?) ∧
    (∀ addr v, s.agenda = .store c addr v :: rest → addr < 2 ^ s.cfg.addrWidth → s.mem.wf = true →
      ∃ t, step s = .next t ∧ t = { s with agenda := rest, mem := t.mem } ∧ t.mem.read addr = v ∧
        ∀ a, a ≠ addr → t.mem.read a = s.mem.read a) ∧
    (∀ addr n, s.agenda = .load c addr n :: rest → 2 ^ s.cfg.addrWidth < addr + n →
      step s = .fault .addressOutsideMemory) ∧
    (∀ addr v, s.agenda = .store c addr v :: rest → 2 ^ s.cfg.addrWidth ≤ addr →
      step s = .fault .addressOutsideMemory)

/-- A free caller's GETERR, with whatever side operands, and a controller step, in either order and with whatever turns to follow: the caller gets the
count as it was before that step, or as it is after it, and that step leaves the count or adds one modulo `2 ^ ERR_WIDTH`, so no other value is seen
(44_registry_diag.md R196; 20_memory.md R64; 30_encoding.md R73; the list of turns is log entry 5). -/
def Obligations.GeterrRacingTimeout : Prop :=
  ∀ (s t : State) (c : Nat) (p : CallerPort) (buf cap : Nat) (rest : List Turn),
    s.callers[c]? = some p → p.outstanding = false → runSteps 2 s = .next t →
    (s.agenda = .issue c 0x60000000 buf cap :: .controller :: rest →
      ∃ q, t.callers[c]? = some q ∧ q.rspValue = s.errcnt) ∧
    (s.agenda = .controller :: .issue c 0x60000000 buf cap :: rest →
      ∃ q, t.callers[c]? = some q ∧ q.rspValue = t.errcnt) ∧
    (s.agenda = .issue c 0x60000000 buf cap :: .controller :: rest ∨
        s.agenda = .controller :: .issue c 0x60000000 buf cap :: rest →
      t.errcnt = s.errcnt ∨ t.errcnt = (s.errcnt + 1) % 2 ^ s.cfg.errWidth)

/-- Two draws are independent: a sample takes one scripted answer and a receive another kind, and where the script is empty the answer is a free value that
the next draw does not use again (model's form of 41_bus_interface.md R127, log entry 4). -/
def Obligations.DrawsFollowScript : Prop :=
  ∀ s : State,
    (∀ v l, s.sampleScript = v :: l → s.drawBit = v ∧ s.tookBit = { s with sampleScript := l }) ∧
    (s.sampleScript = [] → s.drawBit = Config.busSample s.draws ∧ s.tookBit = { s with draws := s.draws + 1 }) ∧
    (∀ v l, s.rxScript = v :: l → s.drawByte = v ∧ s.tookByte = { s with rxScript := l }) ∧
    (s.rxScript = [] → s.drawByte = Config.busByte s.draws ∧ s.tookByte = { s with draws := s.draws + 1 })
end

