-- ==== Sys2Proof/Laws/Memory.lean ====
section
/-! SUPPORT. Caller memory: a read after a write, and every operation keeps the canonical form. -/

namespace Sys2Proof.Machine

theorem Memory.read_write_other (m : Memory) {a b : Nat} (v : Byte) (h : b ≠ a) :
    (m.write a v).read b = m.read b := by
  induction m with
  | nil =>
    simp only [Memory.write]
    split <;> simp [Memory.read, h.symm]
  | cons c m ih =>
    obtain ⟨k, x⟩ := c
    simp only [Memory.write]
    split
    · split <;> simp [Memory.read, h.symm]
    · split
      · subst_vars; split <;> simp [Memory.read, h.symm]
      · simp [Memory.read, ih]

/-- Below its lowest address a canonical memory lists nothing. -/
theorem Memory.read_below {m : Memory} {lo a : Nat} (h : Memory.risesFrom lo m = true) (ha : a < lo) :
    m.read a = unlistedByte := by
  induction m generalizing lo with
  | nil => rfl
  | cons c m ih =>
    obtain ⟨k, x⟩ := c
    simp only [Memory.risesFrom, Bool.and_eq_true, decide_eq_true_eq] at h
    have : k ≠ a := by omega
    simp only [Memory.read, if_neg this]
    exact ih h.2 (by omega)

theorem Memory.risesFrom_mono {m : Memory} {lo lo' : Nat} (h : Memory.risesFrom lo m = true) (hl : lo' ≤ lo) :
    Memory.risesFrom lo' m = true := by
  cases m with
  | nil => rfl
  | cons c m =>
    obtain ⟨k, x⟩ := c
    simp only [Memory.risesFrom, Bool.and_eq_true, decide_eq_true_eq] at h ⊢
    exact ⟨⟨by omega, h.1.2⟩, h.2⟩

theorem Memory.risesFrom_write {m : Memory} {lo a : Nat} (v : Byte) (h : Memory.risesFrom lo m = true) (ha : lo ≤ a) :
    Memory.risesFrom lo (m.write a v) = true := by
  induction m generalizing lo with
  | nil => simp only [Memory.write]; split <;> simp_all [Memory.risesFrom]
  | cons c m ih =>
    obtain ⟨k, x⟩ := c
    have h' := h
    simp only [Memory.risesFrom, Bool.and_eq_true, decide_eq_true_eq] at h
    obtain ⟨⟨h1, h2⟩, h3⟩ := h
    simp only [Memory.write]
    split
    · split
      · exact h'
      · simp_all [Memory.risesFrom]
    · split
      · subst_vars
        split
        · exact Memory.risesFrom_mono h3 (by omega)
        · simp_all [Memory.risesFrom]
      · simp only [Memory.risesFrom, Bool.and_eq_true, decide_eq_true_eq]
        exact ⟨⟨h1, h2⟩, ih h3 (by omega)⟩

/-- A write keeps the canonical form. -/
theorem Memory.write_wf {m : Memory} (a : Nat) (v : Byte) (h : m.wf = true) : (m.write a v).wf = true :=
  Memory.risesFrom_write v h (Nat.zero_le a)

theorem Memory.read_write_rises {m : Memory} {lo : Nat} (a : Nat) (v : Byte) (h : Memory.risesFrom lo m = true) :
    (m.write a v).read a = v := by
  induction m generalizing lo with
  | nil => simp only [Memory.write]; split <;> simp_all [Memory.read]
  | cons c m ih =>
    obtain ⟨k, x⟩ := c
    have h' := h
    simp only [Memory.risesFrom, Bool.and_eq_true, decide_eq_true_eq] at h
    obtain ⟨⟨h1, h2⟩, h3⟩ := h
    simp only [Memory.write]
    split
    · rename_i hlt
      split
      · rename_i hv
        subst hv
        have : k ≠ a := by omega
        simp only [Memory.read, if_neg this]
        exact Memory.read_below h3 (by omega)
      · simp [Memory.read]
    · split
      · subst_vars
        split
        · rename_i hv
          subst hv
          exact Memory.read_below h3 (by omega)
        · simp [Memory.read]
      · rename_i hne
        have : k ≠ a := fun e => hne e.symm
        simp only [Memory.read, if_neg this]
        exact ih h3

/-- A read after a write to the same address gives the value written. -/
theorem Memory.read_write_same {m : Memory} (a : Nat) (v : Byte) (h : m.wf = true) : (m.write a v).read a = v :=
  Memory.read_write_rises a v h

/-- A write lists no address but the one written and those listed before. -/
theorem Memory.mem_write {m : Memory} {a : Nat} {v : Byte} {c : Host.Cell} (h : c ∈ m.write a v) :
    c ∈ m ∨ c = (a, v) := by
  induction m with
  | nil => simp only [Memory.write] at h; split at h <;> simp_all
  | cons d m ih =>
    obtain ⟨k, x⟩ := d
    simp only [Memory.write] at h
    split at h
    · split at h <;> simp_all; tauto
    · split at h
      · split at h <;> simp_all; tauto
      · simp only [List.mem_cons] at h ⊢
        rcases h with h | h
        · exact .inl (.inl h)
        · rcases ih h with h | h
          · exact .inl (.inr h)
          · exact .inr h

theorem Memory.ext_rises {m m' : Memory} {lo lo' : Nat} (h : Memory.risesFrom lo m = true)
    (h' : Memory.risesFrom lo' m' = true) (e : ∀ a, m.read a = m'.read a) : m = m' := by
  induction m generalizing m' lo lo' with
  | nil =>
    cases m' with
    | nil => rfl
    | cons d m' =>
      obtain ⟨k, x⟩ := d
      simp only [Memory.risesFrom, Bool.and_eq_true, decide_eq_true_eq] at h'
      have := e k
      simp only [Memory.read, if_true] at this
      exact absurd this.symm h'.1.2
  | cons c m ih =>
    obtain ⟨k, x⟩ := c
    simp only [Memory.risesFrom, Bool.and_eq_true, decide_eq_true_eq] at h
    cases m' with
    | nil =>
      have := e k
      simp only [Memory.read, if_true] at this
      exact absurd this h.1.2
    | cons d m' =>
      obtain ⟨l, y⟩ := d
      simp only [Memory.risesFrom, Bool.and_eq_true, decide_eq_true_eq] at h'
      rcases Nat.lt_trichotomy k l with hk | hk | hk
      · have := e k
        simp only [Memory.read, if_true, if_neg (show l ≠ k by omega)] at this
        rw [Memory.read_below h'.2 (by omega)] at this
        exact absurd this h.1.2
      · subst hk
        have hx := e k
        simp only [Memory.read, if_true] at hx
        subst hx
        have : m = m' := by
          refine ih h.2 h'.2 fun a => ?_
          by_cases ha : k = a
          · subst ha
            rw [Memory.read_below h.2 (by omega), Memory.read_below h'.2 (by omega)]
          · have := e a
            simpa only [Memory.read, if_neg ha] using this
        rw [this]
      · have := e l
        simp only [Memory.read, if_true, if_neg (show k ≠ l by omega)] at this
        rw [Memory.read_below h.2 (by omega)] at this
        exact absurd this.symm h'.1.2

/-- Two canonical memories that read alike at every address are the same data. -/
theorem Memory.ext {m m' : Memory} (h : m.wf = true) (h' : m'.wf = true) (e : ∀ a, m.read a = m'.read a) : m = m' :=
  Memory.ext_rises h h' e

/-- `MemRead(addr, n)` gives `n` bytes, the `i`-th from `addr + i` (20_memory.md R55). -/
theorem Memory.readMany_getElem? (m : Memory) (a n i : Nat) (h : i < n) :
    (m.readMany a n)[i]? = some (m.read (a + i)) := by
  induction n generalizing a i with
  | zero => omega
  | succ n ih =>
    cases i with
    | zero => simp [Memory.readMany]
    | succ i =>
      simp only [Memory.readMany, List.getElem?_cons_succ]
      rw [ih (a + 1) i (by omega)]
      congr 2
      omega

theorem Memory.readMany_length (m : Memory) (a n : Nat) : (m.readMany a n).length = n := by
  induction n generalizing a with
  | zero => rfl
  | succ n ih => simp [Memory.readMany, ih]

end Sys2Proof.Machine
end

