-- ==== Sys2Proof/Laws/PerInstr.lean ====
section
/-! SUPPORT. Per-instruction lemmas: bits [31:28] of an encoded instruction tell its format (30_encoding.md R72, R79). -/

namespace Sys2Proof

/-- The top four bits of a word given as those four bits and the rest. -/
theorem opOf_append (c : BitVec 4) (rest : BitVec 28) : opOf (c ++ rest : BitVec 32) = c := by
  unfold opOf
  ext i hi
  simp only [BitVec.getElem_extractLsb', BitVec.getLsbD_append]
  have : ¬ (28 + i < 28) := by omega
  simp [this]
  rfl

end Sys2Proof

namespace Sys2Proof.Laws.FormatByOpcode

/-- A command word is no event word, and an event word is one. -/
def Statement (i : Instr) : Prop := isEventWord (encode i) = !i.isCommand

theorem of_append {i : Instr} {c : BitVec 4} {rest : BitVec 28} (h : encode i = c ++ rest)
    (hc : (decide (8 ≤ c.toNat) && decide (c.toNat ≤ 13)) = !i.isCommand) : Statement i := by
  unfold Statement isEventWord
  rw [h, opOf_append]
  exact hc

theorem init (dev : DevId) : Statement (.init dev) :=
  of_append rfl rfl

theorem write (dev : DevId) (addr7 : Addr7) (reg data : Byte) : Statement (.write dev addr7 reg data) :=
  of_append rfl rfl

theorem writec (addr7 : Addr7) (reg data : Byte) : Statement (.writec addr7 reg data) :=
  of_append rfl rfl

theorem read (dev : DevId) (addr7 : Addr7) (reg len : Byte) : Statement (.read dev addr7 reg len) :=
  of_append rfl rfl

theorem readc (addr7 : Addr7) (reg len : Byte) : Statement (.readc addr7 reg len) :=
  of_append rfl rfl

theorem geterr : Statement .geterr :=
  of_append rfl rfl

theorem begin (bus : BusId) (endMode : EndMode) (start : Bit) (dir : Dir) (nbytes saddr : Byte) : Statement (.begin bus endMode start dir nbytes saddr) :=
  of_append rfl rfl

theorem tx (bus : BusId) (byte : Byte) : Statement (.tx bus byte) :=
  of_append rfl rfl

theorem rx (bus : BusId) (byte : Byte) : Statement (.rx bus byte) :=
  of_append rfl rfl

theorem clrstop (bus : BusId) : Statement (.clrstop bus) :=
  of_append rfl rfl

theorem sample (bus : BusId) (flag : Flag) (value : Bit) : Statement (.sample bus flag value) :=
  of_append rfl rfl

theorem config (bus : BusId) (overclock : Bit) : Statement (.config bus overclock) :=
  of_append rfl rfl

end Sys2Proof.Laws.FormatByOpcode
end

