-- ==== Sys2Proof/Laws/State.lean ====
section
/-! SUPPORT. What each field is after each update of the state: one lemma per field per update. -/

namespace Sys2Proof.Machine

/-! ### `log r` -/

@[simp] theorem State.log_errcnt (r : Record) (s : State) : (s.log r).errcnt = s.errcnt := rfl
@[simp] theorem State.log_curdev (r : Record) (s : State) : (s.log r).curdev = s.curdev := rfl
@[simp] theorem State.log_buses (r : Record) (s : State) : (s.log r).buses = s.buses := rfl
@[simp] theorem State.log_phase (r : Record) (s : State) : (s.log r).phase = s.phase := rfl
@[simp] theorem State.log_stage (r : Record) (s : State) : (s.log r).stage = s.stage := rfl
@[simp] theorem State.log_ctr (r : Record) (s : State) : (s.log r).ctr = s.ctr := rfl
@[simp] theorem State.log_tbus (r : Record) (s : State) : (s.log r).tbus = s.tbus := rfl
@[simp] theorem State.log_tsaddr (r : Record) (s : State) : (s.log r).tsaddr = s.tsaddr := rfl
@[simp] theorem State.log_treg (r : Record) (s : State) : (s.log r).treg = s.treg := rfl
@[simp] theorem State.log_tdata (r : Record) (s : State) : (s.log r).tdata = s.tdata := rfl
@[simp] theorem State.log_tlen (r : Record) (s : State) : (s.log r).tlen = s.tlen := rfl
@[simp] theorem State.log_toff (r : Record) (s : State) : (s.log r).toff = s.toff := rfl
@[simp] theorem State.log_trem (r : Record) (s : State) : (s.log r).trem = s.trem := rfl
@[simp] theorem State.log_tbuf (r : Record) (s : State) : (s.log r).tbuf = s.tbuf := rfl
@[simp] theorem State.log_tcap (r : Record) (s : State) : (s.log r).tcap = s.tcap := rfl
@[simp] theorem State.log_tcaller (r : Record) (s : State) : (s.log r).tcaller = s.tcaller := rfl
@[simp] theorem State.log_refused (r : Record) (s : State) : (s.log r).refused = s.refused := rfl
@[simp] theorem State.log_hist (r : Record) (s : State) : (s.log r).hist = s.hist ++ [r] := rfl
@[simp] theorem State.log_mem (r : Record) (s : State) : (s.log r).mem = s.mem := rfl
@[simp] theorem State.log_cmdWord (r : Record) (s : State) : (s.log r).cmdWord = s.cmdWord := rfl
@[simp] theorem State.log_cmdBuf (r : Record) (s : State) : (s.log r).cmdBuf = s.cmdBuf := rfl
@[simp] theorem State.log_cmdCap (r : Record) (s : State) : (s.log r).cmdCap = s.cmdCap := rfl
@[simp] theorem State.log_cmdCaller (r : Record) (s : State) : (s.log r).cmdCaller = s.cmdCaller := rfl
@[simp] theorem State.log_callers (r : Record) (s : State) : (s.log r).callers = s.callers := rfl
@[simp] theorem State.log_cfg (r : Record) (s : State) : (s.log r).cfg = s.cfg := rfl
@[simp] theorem State.log_agenda (r : Record) (s : State) : (s.log r).agenda = s.agenda := rfl
@[simp] theorem State.log_sampleScript (r : Record) (s : State) : (s.log r).sampleScript = s.sampleScript := rfl
@[simp] theorem State.log_rxScript (r : Record) (s : State) : (s.log r).rxScript = s.rxScript := rfl
@[simp] theorem State.log_draws (r : Record) (s : State) : (s.log r).draws = s.draws := rfl

/-! ### `onCaller c f` -/

@[simp] theorem State.onCaller_errcnt (c : Nat) (f : CallerPort → CallerPort) (s : State) : (s.onCaller c f).errcnt = s.errcnt := rfl
@[simp] theorem State.onCaller_curdev (c : Nat) (f : CallerPort → CallerPort) (s : State) : (s.onCaller c f).curdev = s.curdev := rfl
@[simp] theorem State.onCaller_buses (c : Nat) (f : CallerPort → CallerPort) (s : State) : (s.onCaller c f).buses = s.buses := rfl
@[simp] theorem State.onCaller_phase (c : Nat) (f : CallerPort → CallerPort) (s : State) : (s.onCaller c f).phase = s.phase := rfl
@[simp] theorem State.onCaller_stage (c : Nat) (f : CallerPort → CallerPort) (s : State) : (s.onCaller c f).stage = s.stage := rfl
@[simp] theorem State.onCaller_ctr (c : Nat) (f : CallerPort → CallerPort) (s : State) : (s.onCaller c f).ctr = s.ctr := rfl
@[simp] theorem State.onCaller_tbus (c : Nat) (f : CallerPort → CallerPort) (s : State) : (s.onCaller c f).tbus = s.tbus := rfl
@[simp] theorem State.onCaller_tsaddr (c : Nat) (f : CallerPort → CallerPort) (s : State) : (s.onCaller c f).tsaddr = s.tsaddr := rfl
@[simp] theorem State.onCaller_treg (c : Nat) (f : CallerPort → CallerPort) (s : State) : (s.onCaller c f).treg = s.treg := rfl
@[simp] theorem State.onCaller_tdata (c : Nat) (f : CallerPort → CallerPort) (s : State) : (s.onCaller c f).tdata = s.tdata := rfl
@[simp] theorem State.onCaller_tlen (c : Nat) (f : CallerPort → CallerPort) (s : State) : (s.onCaller c f).tlen = s.tlen := rfl
@[simp] theorem State.onCaller_toff (c : Nat) (f : CallerPort → CallerPort) (s : State) : (s.onCaller c f).toff = s.toff := rfl
@[simp] theorem State.onCaller_trem (c : Nat) (f : CallerPort → CallerPort) (s : State) : (s.onCaller c f).trem = s.trem := rfl
@[simp] theorem State.onCaller_tbuf (c : Nat) (f : CallerPort → CallerPort) (s : State) : (s.onCaller c f).tbuf = s.tbuf := rfl
@[simp] theorem State.onCaller_tcap (c : Nat) (f : CallerPort → CallerPort) (s : State) : (s.onCaller c f).tcap = s.tcap := rfl
@[simp] theorem State.onCaller_tcaller (c : Nat) (f : CallerPort → CallerPort) (s : State) : (s.onCaller c f).tcaller = s.tcaller := rfl
@[simp] theorem State.onCaller_refused (c : Nat) (f : CallerPort → CallerPort) (s : State) : (s.onCaller c f).refused = s.refused := rfl
@[simp] theorem State.onCaller_hist (c : Nat) (f : CallerPort → CallerPort) (s : State) : (s.onCaller c f).hist = s.hist := rfl
@[simp] theorem State.onCaller_mem (c : Nat) (f : CallerPort → CallerPort) (s : State) : (s.onCaller c f).mem = s.mem := rfl
@[simp] theorem State.onCaller_cmdWord (c : Nat) (f : CallerPort → CallerPort) (s : State) : (s.onCaller c f).cmdWord = s.cmdWord := rfl
@[simp] theorem State.onCaller_cmdBuf (c : Nat) (f : CallerPort → CallerPort) (s : State) : (s.onCaller c f).cmdBuf = s.cmdBuf := rfl
@[simp] theorem State.onCaller_cmdCap (c : Nat) (f : CallerPort → CallerPort) (s : State) : (s.onCaller c f).cmdCap = s.cmdCap := rfl
@[simp] theorem State.onCaller_cmdCaller (c : Nat) (f : CallerPort → CallerPort) (s : State) : (s.onCaller c f).cmdCaller = s.cmdCaller := rfl
@[simp] theorem State.onCaller_callers (c : Nat) (f : CallerPort → CallerPort) (s : State) : (s.onCaller c f).callers = s.callers.modify c f := rfl
@[simp] theorem State.onCaller_cfg (c : Nat) (f : CallerPort → CallerPort) (s : State) : (s.onCaller c f).cfg = s.cfg := rfl
@[simp] theorem State.onCaller_agenda (c : Nat) (f : CallerPort → CallerPort) (s : State) : (s.onCaller c f).agenda = s.agenda := rfl
@[simp] theorem State.onCaller_sampleScript (c : Nat) (f : CallerPort → CallerPort) (s : State) : (s.onCaller c f).sampleScript = s.sampleScript := rfl
@[simp] theorem State.onCaller_rxScript (c : Nat) (f : CallerPort → CallerPort) (s : State) : (s.onCaller c f).rxScript = s.rxScript := rfl
@[simp] theorem State.onCaller_draws (c : Nat) (f : CallerPort → CallerPort) (s : State) : (s.onCaller c f).draws = s.draws := rfl

/-! ### `arm n` -/

@[simp] theorem State.arm_errcnt (n : Nat) (s : State) : (s.arm n).errcnt = s.errcnt := rfl
@[simp] theorem State.arm_curdev (n : Nat) (s : State) : (s.arm n).curdev = s.curdev := rfl
@[simp] theorem State.arm_buses (n : Nat) (s : State) : (s.arm n).buses = s.buses := rfl
@[simp] theorem State.arm_phase (n : Nat) (s : State) : (s.arm n).phase = s.phase := rfl
@[simp] theorem State.arm_stage (n : Nat) (s : State) : (s.arm n).stage = s.stage := rfl
@[simp] theorem State.arm_ctr (n : Nat) (s : State) : (s.arm n).ctr = n := rfl
@[simp] theorem State.arm_tbus (n : Nat) (s : State) : (s.arm n).tbus = s.tbus := rfl
@[simp] theorem State.arm_tsaddr (n : Nat) (s : State) : (s.arm n).tsaddr = s.tsaddr := rfl
@[simp] theorem State.arm_treg (n : Nat) (s : State) : (s.arm n).treg = s.treg := rfl
@[simp] theorem State.arm_tdata (n : Nat) (s : State) : (s.arm n).tdata = s.tdata := rfl
@[simp] theorem State.arm_tlen (n : Nat) (s : State) : (s.arm n).tlen = s.tlen := rfl
@[simp] theorem State.arm_toff (n : Nat) (s : State) : (s.arm n).toff = s.toff := rfl
@[simp] theorem State.arm_trem (n : Nat) (s : State) : (s.arm n).trem = s.trem := rfl
@[simp] theorem State.arm_tbuf (n : Nat) (s : State) : (s.arm n).tbuf = s.tbuf := rfl
@[simp] theorem State.arm_tcap (n : Nat) (s : State) : (s.arm n).tcap = s.tcap := rfl
@[simp] theorem State.arm_tcaller (n : Nat) (s : State) : (s.arm n).tcaller = s.tcaller := rfl
@[simp] theorem State.arm_refused (n : Nat) (s : State) : (s.arm n).refused = s.refused := rfl
@[simp] theorem State.arm_hist (n : Nat) (s : State) : (s.arm n).hist = s.hist := rfl
@[simp] theorem State.arm_mem (n : Nat) (s : State) : (s.arm n).mem = s.mem := rfl
@[simp] theorem State.arm_cmdWord (n : Nat) (s : State) : (s.arm n).cmdWord = s.cmdWord := rfl
@[simp] theorem State.arm_cmdBuf (n : Nat) (s : State) : (s.arm n).cmdBuf = s.cmdBuf := rfl
@[simp] theorem State.arm_cmdCap (n : Nat) (s : State) : (s.arm n).cmdCap = s.cmdCap := rfl
@[simp] theorem State.arm_cmdCaller (n : Nat) (s : State) : (s.arm n).cmdCaller = s.cmdCaller := rfl
@[simp] theorem State.arm_callers (n : Nat) (s : State) : (s.arm n).callers = s.callers := rfl
@[simp] theorem State.arm_cfg (n : Nat) (s : State) : (s.arm n).cfg = s.cfg := rfl
@[simp] theorem State.arm_agenda (n : Nat) (s : State) : (s.arm n).agenda = s.agenda := rfl
@[simp] theorem State.arm_sampleScript (n : Nat) (s : State) : (s.arm n).sampleScript = s.sampleScript := rfl
@[simp] theorem State.arm_rxScript (n : Nat) (s : State) : (s.arm n).rxScript = s.rxScript := rfl
@[simp] theorem State.arm_draws (n : Nat) (s : State) : (s.arm n).draws = s.draws := rfl

/-! ### `complete v` -/

@[simp] theorem State.complete_errcnt (v : Bit) (s : State) : (s.complete v).errcnt = s.errcnt := rfl
@[simp] theorem State.complete_curdev (v : Bit) (s : State) : (s.complete v).curdev = s.curdev := rfl
@[simp] theorem State.complete_buses (v : Bit) (s : State) : (s.complete v).buses = s.buses := rfl
@[simp] theorem State.complete_phase (v : Bit) (s : State) : (s.complete v).phase = .idle := rfl
@[simp] theorem State.complete_stage (v : Bit) (s : State) : (s.complete v).stage = s.stage := rfl
@[simp] theorem State.complete_ctr (v : Bit) (s : State) : (s.complete v).ctr = s.ctr := rfl
@[simp] theorem State.complete_tbus (v : Bit) (s : State) : (s.complete v).tbus = s.tbus := rfl
@[simp] theorem State.complete_tsaddr (v : Bit) (s : State) : (s.complete v).tsaddr = s.tsaddr := rfl
@[simp] theorem State.complete_treg (v : Bit) (s : State) : (s.complete v).treg = s.treg := rfl
@[simp] theorem State.complete_tdata (v : Bit) (s : State) : (s.complete v).tdata = s.tdata := rfl
@[simp] theorem State.complete_tlen (v : Bit) (s : State) : (s.complete v).tlen = s.tlen := rfl
@[simp] theorem State.complete_toff (v : Bit) (s : State) : (s.complete v).toff = s.toff := rfl
@[simp] theorem State.complete_trem (v : Bit) (s : State) : (s.complete v).trem = s.trem := rfl
@[simp] theorem State.complete_tbuf (v : Bit) (s : State) : (s.complete v).tbuf = s.tbuf := rfl
@[simp] theorem State.complete_tcap (v : Bit) (s : State) : (s.complete v).tcap = s.tcap := rfl
@[simp] theorem State.complete_tcaller (v : Bit) (s : State) : (s.complete v).tcaller = s.tcaller := rfl
@[simp] theorem State.complete_refused (v : Bit) (s : State) : (s.complete v).refused = s.refused := rfl
@[simp] theorem State.complete_hist (v : Bit) (s : State) : (s.complete v).hist = s.hist := rfl
@[simp] theorem State.complete_mem (v : Bit) (s : State) : (s.complete v).mem = s.mem := rfl
@[simp] theorem State.complete_cmdWord (v : Bit) (s : State) : (s.complete v).cmdWord = s.cmdWord := rfl
@[simp] theorem State.complete_cmdBuf (v : Bit) (s : State) : (s.complete v).cmdBuf = s.cmdBuf := rfl
@[simp] theorem State.complete_cmdCap (v : Bit) (s : State) : (s.complete v).cmdCap = s.cmdCap := rfl
@[simp] theorem State.complete_cmdCaller (v : Bit) (s : State) : (s.complete v).cmdCaller = s.cmdCaller := rfl
@[simp] theorem State.complete_callers (v : Bit) (s : State) : (s.complete v).callers = s.callers.modify s.tcaller (CallerPort.gotOk v) := rfl
@[simp] theorem State.complete_cfg (v : Bit) (s : State) : (s.complete v).cfg = s.cfg := rfl
@[simp] theorem State.complete_agenda (v : Bit) (s : State) : (s.complete v).agenda = s.agenda := rfl
@[simp] theorem State.complete_sampleScript (v : Bit) (s : State) : (s.complete v).sampleScript = s.sampleScript := rfl
@[simp] theorem State.complete_rxScript (v : Bit) (s : State) : (s.complete v).rxScript = s.rxScript := rfl
@[simp] theorem State.complete_draws (v : Bit) (s : State) : (s.complete v).draws = s.draws := rfl

/-! ### `timeout` -/

@[simp] theorem State.timeout_errcnt (s : State) : (s.timeout).errcnt = (s.errcnt + 1) % 2 ^ s.cfg.errWidth := rfl
@[simp] theorem State.timeout_curdev (s : State) : (s.timeout).curdev = s.curdev := rfl
@[simp] theorem State.timeout_buses (s : State) : (s.timeout).buses = s.buses := rfl
@[simp] theorem State.timeout_phase (s : State) : (s.timeout).phase = .idle := rfl
@[simp] theorem State.timeout_stage (s : State) : (s.timeout).stage = s.stage := rfl
@[simp] theorem State.timeout_ctr (s : State) : (s.timeout).ctr = s.ctr := rfl
@[simp] theorem State.timeout_tbus (s : State) : (s.timeout).tbus = s.tbus := rfl
@[simp] theorem State.timeout_tsaddr (s : State) : (s.timeout).tsaddr = s.tsaddr := rfl
@[simp] theorem State.timeout_treg (s : State) : (s.timeout).treg = s.treg := rfl
@[simp] theorem State.timeout_tdata (s : State) : (s.timeout).tdata = s.tdata := rfl
@[simp] theorem State.timeout_tlen (s : State) : (s.timeout).tlen = s.tlen := rfl
@[simp] theorem State.timeout_toff (s : State) : (s.timeout).toff = s.toff := rfl
@[simp] theorem State.timeout_trem (s : State) : (s.timeout).trem = s.trem := rfl
@[simp] theorem State.timeout_tbuf (s : State) : (s.timeout).tbuf = s.tbuf := rfl
@[simp] theorem State.timeout_tcap (s : State) : (s.timeout).tcap = s.tcap := rfl
@[simp] theorem State.timeout_tcaller (s : State) : (s.timeout).tcaller = s.tcaller := rfl
@[simp] theorem State.timeout_refused (s : State) : (s.timeout).refused = s.refused := rfl
@[simp] theorem State.timeout_hist (s : State) : (s.timeout).hist = s.hist := rfl
@[simp] theorem State.timeout_mem (s : State) : (s.timeout).mem = s.mem := rfl
@[simp] theorem State.timeout_cmdWord (s : State) : (s.timeout).cmdWord = s.cmdWord := rfl
@[simp] theorem State.timeout_cmdBuf (s : State) : (s.timeout).cmdBuf = s.cmdBuf := rfl
@[simp] theorem State.timeout_cmdCap (s : State) : (s.timeout).cmdCap = s.cmdCap := rfl
@[simp] theorem State.timeout_cmdCaller (s : State) : (s.timeout).cmdCaller = s.cmdCaller := rfl
@[simp] theorem State.timeout_callers (s : State) : (s.timeout).callers = s.callers.modify s.tcaller (CallerPort.gotOk 0) := rfl
@[simp] theorem State.timeout_cfg (s : State) : (s.timeout).cfg = s.cfg := rfl
@[simp] theorem State.timeout_agenda (s : State) : (s.timeout).agenda = s.agenda := rfl
@[simp] theorem State.timeout_sampleScript (s : State) : (s.timeout).sampleScript = s.sampleScript := rfl
@[simp] theorem State.timeout_rxScript (s : State) : (s.timeout).rxScript = s.rxScript := rfl
@[simp] theorem State.timeout_draws (s : State) : (s.timeout).draws = s.draws := rfl

/-! ### `latchCommand c w b k` -/

@[simp] theorem State.latchCommand_errcnt (c : Nat) (w : Word) (b k : Nat) (s : State) : (s.latchCommand c w b k).errcnt = s.errcnt := rfl
@[simp] theorem State.latchCommand_curdev (c : Nat) (w : Word) (b k : Nat) (s : State) : (s.latchCommand c w b k).curdev = s.curdev := rfl
@[simp] theorem State.latchCommand_buses (c : Nat) (w : Word) (b k : Nat) (s : State) : (s.latchCommand c w b k).buses = s.buses := rfl
@[simp] theorem State.latchCommand_phase (c : Nat) (w : Word) (b k : Nat) (s : State) : (s.latchCommand c w b k).phase = s.phase := rfl
@[simp] theorem State.latchCommand_stage (c : Nat) (w : Word) (b k : Nat) (s : State) : (s.latchCommand c w b k).stage = s.stage := rfl
@[simp] theorem State.latchCommand_ctr (c : Nat) (w : Word) (b k : Nat) (s : State) : (s.latchCommand c w b k).ctr = s.ctr := rfl
@[simp] theorem State.latchCommand_tbus (c : Nat) (w : Word) (b k : Nat) (s : State) : (s.latchCommand c w b k).tbus = s.tbus := rfl
@[simp] theorem State.latchCommand_tsaddr (c : Nat) (w : Word) (b k : Nat) (s : State) : (s.latchCommand c w b k).tsaddr = s.tsaddr := rfl
@[simp] theorem State.latchCommand_treg (c : Nat) (w : Word) (b k : Nat) (s : State) : (s.latchCommand c w b k).treg = s.treg := rfl
@[simp] theorem State.latchCommand_tdata (c : Nat) (w : Word) (b k : Nat) (s : State) : (s.latchCommand c w b k).tdata = s.tdata := rfl
@[simp] theorem State.latchCommand_tlen (c : Nat) (w : Word) (b k : Nat) (s : State) : (s.latchCommand c w b k).tlen = s.tlen := rfl
@[simp] theorem State.latchCommand_toff (c : Nat) (w : Word) (b k : Nat) (s : State) : (s.latchCommand c w b k).toff = s.toff := rfl
@[simp] theorem State.latchCommand_trem (c : Nat) (w : Word) (b k : Nat) (s : State) : (s.latchCommand c w b k).trem = s.trem := rfl
@[simp] theorem State.latchCommand_tbuf (c : Nat) (w : Word) (b k : Nat) (s : State) : (s.latchCommand c w b k).tbuf = s.tbuf := rfl
@[simp] theorem State.latchCommand_tcap (c : Nat) (w : Word) (b k : Nat) (s : State) : (s.latchCommand c w b k).tcap = s.tcap := rfl
@[simp] theorem State.latchCommand_tcaller (c : Nat) (w : Word) (b k : Nat) (s : State) : (s.latchCommand c w b k).tcaller = s.tcaller := rfl
@[simp] theorem State.latchCommand_refused (c : Nat) (w : Word) (b k : Nat) (s : State) : (s.latchCommand c w b k).refused = s.refused := rfl
@[simp] theorem State.latchCommand_hist (c : Nat) (w : Word) (b k : Nat) (s : State) : (s.latchCommand c w b k).hist = s.hist := rfl
@[simp] theorem State.latchCommand_mem (c : Nat) (w : Word) (b k : Nat) (s : State) : (s.latchCommand c w b k).mem = s.mem := rfl
@[simp] theorem State.latchCommand_cmdWord (c : Nat) (w : Word) (b k : Nat) (s : State) : (s.latchCommand c w b k).cmdWord = w := rfl
@[simp] theorem State.latchCommand_cmdBuf (c : Nat) (w : Word) (b k : Nat) (s : State) : (s.latchCommand c w b k).cmdBuf = b % 2 ^ s.cfg.addrWidth := rfl
@[simp] theorem State.latchCommand_cmdCap (c : Nat) (w : Word) (b k : Nat) (s : State) : (s.latchCommand c w b k).cmdCap = k := rfl
@[simp] theorem State.latchCommand_cmdCaller (c : Nat) (w : Word) (b k : Nat) (s : State) : (s.latchCommand c w b k).cmdCaller = c := rfl
@[simp] theorem State.latchCommand_callers (c : Nat) (w : Word) (b k : Nat) (s : State) : (s.latchCommand c w b k).callers = s.callers := rfl
@[simp] theorem State.latchCommand_cfg (c : Nat) (w : Word) (b k : Nat) (s : State) : (s.latchCommand c w b k).cfg = s.cfg := rfl
@[simp] theorem State.latchCommand_agenda (c : Nat) (w : Word) (b k : Nat) (s : State) : (s.latchCommand c w b k).agenda = s.agenda := rfl
@[simp] theorem State.latchCommand_sampleScript (c : Nat) (w : Word) (b k : Nat) (s : State) : (s.latchCommand c w b k).sampleScript = s.sampleScript := rfl
@[simp] theorem State.latchCommand_rxScript (c : Nat) (w : Word) (b k : Nat) (s : State) : (s.latchCommand c w b k).rxScript = s.rxScript := rfl
@[simp] theorem State.latchCommand_draws (c : Nat) (w : Word) (b k : Nat) (s : State) : (s.latchCommand c w b k).draws = s.draws := rfl

/-! ### `loadTransaction b a r p` -/

@[simp] theorem State.loadTransaction_errcnt (b : BusId) (a : Addr7) (r : Byte) (p : Phase) (s : State) : (s.loadTransaction b a r p).errcnt = s.errcnt := rfl
@[simp] theorem State.loadTransaction_curdev (b : BusId) (a : Addr7) (r : Byte) (p : Phase) (s : State) : (s.loadTransaction b a r p).curdev = s.curdev := rfl
@[simp] theorem State.loadTransaction_buses (b : BusId) (a : Addr7) (r : Byte) (p : Phase) (s : State) : (s.loadTransaction b a r p).buses = s.buses := rfl
@[simp] theorem State.loadTransaction_phase (b : BusId) (a : Addr7) (r : Byte) (p : Phase) (s : State) : (s.loadTransaction b a r p).phase = p := rfl
@[simp] theorem State.loadTransaction_stage (b : BusId) (a : Addr7) (r : Byte) (p : Phase) (s : State) : (s.loadTransaction b a r p).stage = .entry := rfl
@[simp] theorem State.loadTransaction_ctr (b : BusId) (a : Addr7) (r : Byte) (p : Phase) (s : State) : (s.loadTransaction b a r p).ctr = s.ctr := rfl
@[simp] theorem State.loadTransaction_tbus (b : BusId) (a : Addr7) (r : Byte) (p : Phase) (s : State) : (s.loadTransaction b a r p).tbus = b := rfl
@[simp] theorem State.loadTransaction_tsaddr (b : BusId) (a : Addr7) (r : Byte) (p : Phase) (s : State) : (s.loadTransaction b a r p).tsaddr = saddrOf a := rfl
@[simp] theorem State.loadTransaction_treg (b : BusId) (a : Addr7) (r : Byte) (p : Phase) (s : State) : (s.loadTransaction b a r p).treg = r := rfl
@[simp] theorem State.loadTransaction_tdata (b : BusId) (a : Addr7) (r : Byte) (p : Phase) (s : State) : (s.loadTransaction b a r p).tdata = s.tdata := rfl
@[simp] theorem State.loadTransaction_tlen (b : BusId) (a : Addr7) (r : Byte) (p : Phase) (s : State) : (s.loadTransaction b a r p).tlen = s.tlen := rfl
@[simp] theorem State.loadTransaction_toff (b : BusId) (a : Addr7) (r : Byte) (p : Phase) (s : State) : (s.loadTransaction b a r p).toff = s.toff := rfl
@[simp] theorem State.loadTransaction_trem (b : BusId) (a : Addr7) (r : Byte) (p : Phase) (s : State) : (s.loadTransaction b a r p).trem = s.trem := rfl
@[simp] theorem State.loadTransaction_tbuf (b : BusId) (a : Addr7) (r : Byte) (p : Phase) (s : State) : (s.loadTransaction b a r p).tbuf = s.tbuf := rfl
@[simp] theorem State.loadTransaction_tcap (b : BusId) (a : Addr7) (r : Byte) (p : Phase) (s : State) : (s.loadTransaction b a r p).tcap = s.tcap := rfl
@[simp] theorem State.loadTransaction_tcaller (b : BusId) (a : Addr7) (r : Byte) (p : Phase) (s : State) : (s.loadTransaction b a r p).tcaller = s.cmdCaller := rfl
@[simp] theorem State.loadTransaction_refused (b : BusId) (a : Addr7) (r : Byte) (p : Phase) (s : State) : (s.loadTransaction b a r p).refused = s.refused := rfl
@[simp] theorem State.loadTransaction_hist (b : BusId) (a : Addr7) (r : Byte) (p : Phase) (s : State) : (s.loadTransaction b a r p).hist = s.hist := rfl
@[simp] theorem State.loadTransaction_mem (b : BusId) (a : Addr7) (r : Byte) (p : Phase) (s : State) : (s.loadTransaction b a r p).mem = s.mem := rfl
@[simp] theorem State.loadTransaction_cmdWord (b : BusId) (a : Addr7) (r : Byte) (p : Phase) (s : State) : (s.loadTransaction b a r p).cmdWord = s.cmdWord := rfl
@[simp] theorem State.loadTransaction_cmdBuf (b : BusId) (a : Addr7) (r : Byte) (p : Phase) (s : State) : (s.loadTransaction b a r p).cmdBuf = s.cmdBuf := rfl
@[simp] theorem State.loadTransaction_cmdCap (b : BusId) (a : Addr7) (r : Byte) (p : Phase) (s : State) : (s.loadTransaction b a r p).cmdCap = s.cmdCap := rfl
@[simp] theorem State.loadTransaction_cmdCaller (b : BusId) (a : Addr7) (r : Byte) (p : Phase) (s : State) : (s.loadTransaction b a r p).cmdCaller = s.cmdCaller := rfl
@[simp] theorem State.loadTransaction_callers (b : BusId) (a : Addr7) (r : Byte) (p : Phase) (s : State) : (s.loadTransaction b a r p).callers = s.callers.modify s.cmdCaller CallerPort.await := rfl
@[simp] theorem State.loadTransaction_cfg (b : BusId) (a : Addr7) (r : Byte) (p : Phase) (s : State) : (s.loadTransaction b a r p).cfg = s.cfg := rfl
@[simp] theorem State.loadTransaction_agenda (b : BusId) (a : Addr7) (r : Byte) (p : Phase) (s : State) : (s.loadTransaction b a r p).agenda = s.agenda := rfl
@[simp] theorem State.loadTransaction_sampleScript (b : BusId) (a : Addr7) (r : Byte) (p : Phase) (s : State) : (s.loadTransaction b a r p).sampleScript = s.sampleScript := rfl
@[simp] theorem State.loadTransaction_rxScript (b : BusId) (a : Addr7) (r : Byte) (p : Phase) (s : State) : (s.loadTransaction b a r p).rxScript = s.rxScript := rfl
@[simp] theorem State.loadTransaction_draws (b : BusId) (a : Addr7) (r : Byte) (p : Phase) (s : State) : (s.loadTransaction b a r p).draws = s.draws := rfl

/-! ### `initialise d b` -/

@[simp] theorem State.initialise_errcnt (d : DevId) (b : BusId) (s : State) : (s.initialise d b).errcnt = s.errcnt := rfl
@[simp] theorem State.initialise_curdev (d : DevId) (b : BusId) (s : State) : (s.initialise d b).curdev = d := rfl
@[simp] theorem State.initialise_buses (d : DevId) (b : BusId) (s : State) : (s.initialise d b).buses = s.buses.set b.toNat ⟨true, s.timingFor b⟩ := rfl
@[simp] theorem State.initialise_phase (d : DevId) (b : BusId) (s : State) : (s.initialise d b).phase = s.phase := rfl
@[simp] theorem State.initialise_stage (d : DevId) (b : BusId) (s : State) : (s.initialise d b).stage = s.stage := rfl
@[simp] theorem State.initialise_ctr (d : DevId) (b : BusId) (s : State) : (s.initialise d b).ctr = s.ctr := rfl
@[simp] theorem State.initialise_tbus (d : DevId) (b : BusId) (s : State) : (s.initialise d b).tbus = s.tbus := rfl
@[simp] theorem State.initialise_tsaddr (d : DevId) (b : BusId) (s : State) : (s.initialise d b).tsaddr = s.tsaddr := rfl
@[simp] theorem State.initialise_treg (d : DevId) (b : BusId) (s : State) : (s.initialise d b).treg = s.treg := rfl
@[simp] theorem State.initialise_tdata (d : DevId) (b : BusId) (s : State) : (s.initialise d b).tdata = s.tdata := rfl
@[simp] theorem State.initialise_tlen (d : DevId) (b : BusId) (s : State) : (s.initialise d b).tlen = s.tlen := rfl
@[simp] theorem State.initialise_toff (d : DevId) (b : BusId) (s : State) : (s.initialise d b).toff = s.toff := rfl
@[simp] theorem State.initialise_trem (d : DevId) (b : BusId) (s : State) : (s.initialise d b).trem = s.trem := rfl
@[simp] theorem State.initialise_tbuf (d : DevId) (b : BusId) (s : State) : (s.initialise d b).tbuf = s.tbuf := rfl
@[simp] theorem State.initialise_tcap (d : DevId) (b : BusId) (s : State) : (s.initialise d b).tcap = s.tcap := rfl
@[simp] theorem State.initialise_tcaller (d : DevId) (b : BusId) (s : State) : (s.initialise d b).tcaller = s.tcaller := rfl
@[simp] theorem State.initialise_refused (d : DevId) (b : BusId) (s : State) : (s.initialise d b).refused = s.refused := rfl
@[simp] theorem State.initialise_hist (d : DevId) (b : BusId) (s : State) : (s.initialise d b).hist = s.hist ++ [.event (encode (.config b (s.overclock b)))] := rfl
@[simp] theorem State.initialise_mem (d : DevId) (b : BusId) (s : State) : (s.initialise d b).mem = s.mem := rfl
@[simp] theorem State.initialise_cmdWord (d : DevId) (b : BusId) (s : State) : (s.initialise d b).cmdWord = s.cmdWord := rfl
@[simp] theorem State.initialise_cmdBuf (d : DevId) (b : BusId) (s : State) : (s.initialise d b).cmdBuf = s.cmdBuf := rfl
@[simp] theorem State.initialise_cmdCap (d : DevId) (b : BusId) (s : State) : (s.initialise d b).cmdCap = s.cmdCap := rfl
@[simp] theorem State.initialise_cmdCaller (d : DevId) (b : BusId) (s : State) : (s.initialise d b).cmdCaller = s.cmdCaller := rfl
@[simp] theorem State.initialise_callers (d : DevId) (b : BusId) (s : State) : (s.initialise d b).callers = s.callers.modify s.cmdCaller CallerPort.gotNoValue := rfl
@[simp] theorem State.initialise_cfg (d : DevId) (b : BusId) (s : State) : (s.initialise d b).cfg = s.cfg := rfl
@[simp] theorem State.initialise_agenda (d : DevId) (b : BusId) (s : State) : (s.initialise d b).agenda = s.agenda := rfl
@[simp] theorem State.initialise_sampleScript (d : DevId) (b : BusId) (s : State) : (s.initialise d b).sampleScript = s.sampleScript := rfl
@[simp] theorem State.initialise_rxScript (d : DevId) (b : BusId) (s : State) : (s.initialise d b).rxScript = s.rxScript := rfl
@[simp] theorem State.initialise_draws (d : DevId) (b : BusId) (s : State) : (s.initialise d b).draws = s.draws := rfl

/-! ### `refuse r` -/

@[simp] theorem State.refuse_errcnt (r : RefuseReason) (s : State) : (s.refuse r).errcnt = s.errcnt := by
  unfold State.refuse; split <;> simp_all
@[simp] theorem State.refuse_curdev (r : RefuseReason) (s : State) : (s.refuse r).curdev = s.curdev := by
  unfold State.refuse; split <;> simp_all
@[simp] theorem State.refuse_buses (r : RefuseReason) (s : State) : (s.refuse r).buses = s.buses := by
  unfold State.refuse; split <;> simp_all
@[simp] theorem State.refuse_phase (r : RefuseReason) (s : State) : (s.refuse r).phase = s.phase := by
  unfold State.refuse; split <;> simp_all
@[simp] theorem State.refuse_stage (r : RefuseReason) (s : State) : (s.refuse r).stage = s.stage := by
  unfold State.refuse; split <;> simp_all
@[simp] theorem State.refuse_ctr (r : RefuseReason) (s : State) : (s.refuse r).ctr = s.ctr := by
  unfold State.refuse; split <;> simp_all
@[simp] theorem State.refuse_tbus (r : RefuseReason) (s : State) : (s.refuse r).tbus = s.tbus := by
  unfold State.refuse; split <;> simp_all
@[simp] theorem State.refuse_tsaddr (r : RefuseReason) (s : State) : (s.refuse r).tsaddr = s.tsaddr := by
  unfold State.refuse; split <;> simp_all
@[simp] theorem State.refuse_treg (r : RefuseReason) (s : State) : (s.refuse r).treg = s.treg := by
  unfold State.refuse; split <;> simp_all
@[simp] theorem State.refuse_tdata (r : RefuseReason) (s : State) : (s.refuse r).tdata = s.tdata := by
  unfold State.refuse; split <;> simp_all
@[simp] theorem State.refuse_tlen (r : RefuseReason) (s : State) : (s.refuse r).tlen = s.tlen := by
  unfold State.refuse; split <;> simp_all
@[simp] theorem State.refuse_toff (r : RefuseReason) (s : State) : (s.refuse r).toff = s.toff := by
  unfold State.refuse; split <;> simp_all
@[simp] theorem State.refuse_trem (r : RefuseReason) (s : State) : (s.refuse r).trem = s.trem := by
  unfold State.refuse; split <;> simp_all
@[simp] theorem State.refuse_tbuf (r : RefuseReason) (s : State) : (s.refuse r).tbuf = s.tbuf := by
  unfold State.refuse; split <;> simp_all
@[simp] theorem State.refuse_tcap (r : RefuseReason) (s : State) : (s.refuse r).tcap = s.tcap := by
  unfold State.refuse; split <;> simp_all
@[simp] theorem State.refuse_tcaller (r : RefuseReason) (s : State) : (s.refuse r).tcaller = s.tcaller := by
  unfold State.refuse; split <;> simp_all
@[simp] theorem State.refuse_refused (r : RefuseReason) (s : State) : (s.refuse r).refused = some (s.refused.getD r) := by
  unfold State.refuse; split <;> simp_all
@[simp] theorem State.refuse_hist (r : RefuseReason) (s : State) : (s.refuse r).hist = s.hist := by
  unfold State.refuse; split <;> simp_all
@[simp] theorem State.refuse_mem (r : RefuseReason) (s : State) : (s.refuse r).mem = s.mem := by
  unfold State.refuse; split <;> simp_all
@[simp] theorem State.refuse_cmdWord (r : RefuseReason) (s : State) : (s.refuse r).cmdWord = s.cmdWord := by
  unfold State.refuse; split <;> simp_all
@[simp] theorem State.refuse_cmdBuf (r : RefuseReason) (s : State) : (s.refuse r).cmdBuf = s.cmdBuf := by
  unfold State.refuse; split <;> simp_all
@[simp] theorem State.refuse_cmdCap (r : RefuseReason) (s : State) : (s.refuse r).cmdCap = s.cmdCap := by
  unfold State.refuse; split <;> simp_all
@[simp] theorem State.refuse_cmdCaller (r : RefuseReason) (s : State) : (s.refuse r).cmdCaller = s.cmdCaller := by
  unfold State.refuse; split <;> simp_all
@[simp] theorem State.refuse_callers (r : RefuseReason) (s : State) : (s.refuse r).callers = s.callers := by
  unfold State.refuse; split <;> simp_all
@[simp] theorem State.refuse_cfg (r : RefuseReason) (s : State) : (s.refuse r).cfg = s.cfg := by
  unfold State.refuse; split <;> simp_all
@[simp] theorem State.refuse_agenda (r : RefuseReason) (s : State) : (s.refuse r).agenda = s.agenda := by
  unfold State.refuse; split <;> simp_all
@[simp] theorem State.refuse_sampleScript (r : RefuseReason) (s : State) : (s.refuse r).sampleScript = s.sampleScript := by
  unfold State.refuse; split <;> simp_all
@[simp] theorem State.refuse_rxScript (r : RefuseReason) (s : State) : (s.refuse r).rxScript = s.rxScript := by
  unfold State.refuse; split <;> simp_all
@[simp] theorem State.refuse_draws (r : RefuseReason) (s : State) : (s.refuse r).draws = s.draws := by
  unfold State.refuse; split <;> simp_all

/-! ### `tookBit` -/

@[simp] theorem State.tookBit_errcnt (s : State) : (s.tookBit).errcnt = s.errcnt := by
  unfold State.tookBit; split <;> simp_all
@[simp] theorem State.tookBit_curdev (s : State) : (s.tookBit).curdev = s.curdev := by
  unfold State.tookBit; split <;> simp_all
@[simp] theorem State.tookBit_buses (s : State) : (s.tookBit).buses = s.buses := by
  unfold State.tookBit; split <;> simp_all
@[simp] theorem State.tookBit_phase (s : State) : (s.tookBit).phase = s.phase := by
  unfold State.tookBit; split <;> simp_all
@[simp] theorem State.tookBit_stage (s : State) : (s.tookBit).stage = s.stage := by
  unfold State.tookBit; split <;> simp_all
@[simp] theorem State.tookBit_ctr (s : State) : (s.tookBit).ctr = s.ctr := by
  unfold State.tookBit; split <;> simp_all
@[simp] theorem State.tookBit_tbus (s : State) : (s.tookBit).tbus = s.tbus := by
  unfold State.tookBit; split <;> simp_all
@[simp] theorem State.tookBit_tsaddr (s : State) : (s.tookBit).tsaddr = s.tsaddr := by
  unfold State.tookBit; split <;> simp_all
@[simp] theorem State.tookBit_treg (s : State) : (s.tookBit).treg = s.treg := by
  unfold State.tookBit; split <;> simp_all
@[simp] theorem State.tookBit_tdata (s : State) : (s.tookBit).tdata = s.tdata := by
  unfold State.tookBit; split <;> simp_all
@[simp] theorem State.tookBit_tlen (s : State) : (s.tookBit).tlen = s.tlen := by
  unfold State.tookBit; split <;> simp_all
@[simp] theorem State.tookBit_toff (s : State) : (s.tookBit).toff = s.toff := by
  unfold State.tookBit; split <;> simp_all
@[simp] theorem State.tookBit_trem (s : State) : (s.tookBit).trem = s.trem := by
  unfold State.tookBit; split <;> simp_all
@[simp] theorem State.tookBit_tbuf (s : State) : (s.tookBit).tbuf = s.tbuf := by
  unfold State.tookBit; split <;> simp_all
@[simp] theorem State.tookBit_tcap (s : State) : (s.tookBit).tcap = s.tcap := by
  unfold State.tookBit; split <;> simp_all
@[simp] theorem State.tookBit_tcaller (s : State) : (s.tookBit).tcaller = s.tcaller := by
  unfold State.tookBit; split <;> simp_all
@[simp] theorem State.tookBit_refused (s : State) : (s.tookBit).refused = s.refused := by
  unfold State.tookBit; split <;> simp_all
@[simp] theorem State.tookBit_hist (s : State) : (s.tookBit).hist = s.hist := by
  unfold State.tookBit; split <;> simp_all
@[simp] theorem State.tookBit_mem (s : State) : (s.tookBit).mem = s.mem := by
  unfold State.tookBit; split <;> simp_all
@[simp] theorem State.tookBit_cmdWord (s : State) : (s.tookBit).cmdWord = s.cmdWord := by
  unfold State.tookBit; split <;> simp_all
@[simp] theorem State.tookBit_cmdBuf (s : State) : (s.tookBit).cmdBuf = s.cmdBuf := by
  unfold State.tookBit; split <;> simp_all
@[simp] theorem State.tookBit_cmdCap (s : State) : (s.tookBit).cmdCap = s.cmdCap := by
  unfold State.tookBit; split <;> simp_all
@[simp] theorem State.tookBit_cmdCaller (s : State) : (s.tookBit).cmdCaller = s.cmdCaller := by
  unfold State.tookBit; split <;> simp_all
@[simp] theorem State.tookBit_callers (s : State) : (s.tookBit).callers = s.callers := by
  unfold State.tookBit; split <;> simp_all
@[simp] theorem State.tookBit_cfg (s : State) : (s.tookBit).cfg = s.cfg := by
  unfold State.tookBit; split <;> simp_all
@[simp] theorem State.tookBit_agenda (s : State) : (s.tookBit).agenda = s.agenda := by
  unfold State.tookBit; split <;> simp_all
@[simp] theorem State.tookBit_sampleScript (s : State) : (s.tookBit).sampleScript = s.sampleScript.tail := by
  unfold State.tookBit; split <;> simp_all
@[simp] theorem State.tookBit_rxScript (s : State) : (s.tookBit).rxScript = s.rxScript := by
  unfold State.tookBit; split <;> simp_all

/-! ### `tookByte` -/

@[simp] theorem State.tookByte_errcnt (s : State) : (s.tookByte).errcnt = s.errcnt := by
  unfold State.tookByte; split <;> simp_all
@[simp] theorem State.tookByte_curdev (s : State) : (s.tookByte).curdev = s.curdev := by
  unfold State.tookByte; split <;> simp_all
@[simp] theorem State.tookByte_buses (s : State) : (s.tookByte).buses = s.buses := by
  unfold State.tookByte; split <;> simp_all
@[simp] theorem State.tookByte_phase (s : State) : (s.tookByte).phase = s.phase := by
  unfold State.tookByte; split <;> simp_all
@[simp] theorem State.tookByte_stage (s : State) : (s.tookByte).stage = s.stage := by
  unfold State.tookByte; split <;> simp_all
@[simp] theorem State.tookByte_ctr (s : State) : (s.tookByte).ctr = s.ctr := by
  unfold State.tookByte; split <;> simp_all
@[simp] theorem State.tookByte_tbus (s : State) : (s.tookByte).tbus = s.tbus := by
  unfold State.tookByte; split <;> simp_all
@[simp] theorem State.tookByte_tsaddr (s : State) : (s.tookByte).tsaddr = s.tsaddr := by
  unfold State.tookByte; split <;> simp_all
@[simp] theorem State.tookByte_treg (s : State) : (s.tookByte).treg = s.treg := by
  unfold State.tookByte; split <;> simp_all
@[simp] theorem State.tookByte_tdata (s : State) : (s.tookByte).tdata = s.tdata := by
  unfold State.tookByte; split <;> simp_all
@[simp] theorem State.tookByte_tlen (s : State) : (s.tookByte).tlen = s.tlen := by
  unfold State.tookByte; split <;> simp_all
@[simp] theorem State.tookByte_toff (s : State) : (s.tookByte).toff = s.toff := by
  unfold State.tookByte; split <;> simp_all
@[simp] theorem State.tookByte_trem (s : State) : (s.tookByte).trem = s.trem := by
  unfold State.tookByte; split <;> simp_all
@[simp] theorem State.tookByte_tbuf (s : State) : (s.tookByte).tbuf = s.tbuf := by
  unfold State.tookByte; split <;> simp_all
@[simp] theorem State.tookByte_tcap (s : State) : (s.tookByte).tcap = s.tcap := by
  unfold State.tookByte; split <;> simp_all
@[simp] theorem State.tookByte_tcaller (s : State) : (s.tookByte).tcaller = s.tcaller := by
  unfold State.tookByte; split <;> simp_all
@[simp] theorem State.tookByte_refused (s : State) : (s.tookByte).refused = s.refused := by
  unfold State.tookByte; split <;> simp_all
@[simp] theorem State.tookByte_hist (s : State) : (s.tookByte).hist = s.hist := by
  unfold State.tookByte; split <;> simp_all
@[simp] theorem State.tookByte_mem (s : State) : (s.tookByte).mem = s.mem := by
  unfold State.tookByte; split <;> simp_all
@[simp] theorem State.tookByte_cmdWord (s : State) : (s.tookByte).cmdWord = s.cmdWord := by
  unfold State.tookByte; split <;> simp_all
@[simp] theorem State.tookByte_cmdBuf (s : State) : (s.tookByte).cmdBuf = s.cmdBuf := by
  unfold State.tookByte; split <;> simp_all
@[simp] theorem State.tookByte_cmdCap (s : State) : (s.tookByte).cmdCap = s.cmdCap := by
  unfold State.tookByte; split <;> simp_all
@[simp] theorem State.tookByte_cmdCaller (s : State) : (s.tookByte).cmdCaller = s.cmdCaller := by
  unfold State.tookByte; split <;> simp_all
@[simp] theorem State.tookByte_callers (s : State) : (s.tookByte).callers = s.callers := by
  unfold State.tookByte; split <;> simp_all
@[simp] theorem State.tookByte_cfg (s : State) : (s.tookByte).cfg = s.cfg := by
  unfold State.tookByte; split <;> simp_all
@[simp] theorem State.tookByte_agenda (s : State) : (s.tookByte).agenda = s.agenda := by
  unfold State.tookByte; split <;> simp_all
@[simp] theorem State.tookByte_sampleScript (s : State) : (s.tookByte).sampleScript = s.sampleScript := by
  unfold State.tookByte; split <;> simp_all
@[simp] theorem State.tookByte_rxScript (s : State) : (s.tookByte).rxScript = s.rxScript.tail := by
  unfold State.tookByte; split <;> simp_all

/-! ### The bus-interface primitives are one log entry each -/

@[simp] theorem State.emit_eq (e : Instr) (s : State) : s.emit e = s.log (.event (encode e)) := rfl
@[simp] theorem State.beginTransfer_eq (b : BusId) (e : EndMode) (st : Bit) (d : Dir) (n a : Byte) (s : State) :
    s.beginTransfer b e st d n a = s.log (.event (encode (.begin b e st d n a))) := rfl
@[simp] theorem State.transmit_eq (b : BusId) (v : Byte) (s : State) :
    s.transmit b v = s.log (.event (encode (.tx b v))) := rfl
@[simp] theorem State.received_eq (b : BusId) (v : Byte) (s : State) :
    s.received b v = s.log (.event (encode (.rx b v))) := rfl
@[simp] theorem State.clearStop_eq (b : BusId) (s : State) :
    s.clearStop b = s.log (.event (encode (.clrstop b))) := rfl
@[simp] theorem State.sampled_eq (b : BusId) (f : Flag) (v : Bit) (s : State) :
    s.sampled b f v = s.log (.event (encode (.sample b f v))) := rfl
@[simp] theorem State.configured_eq (b : BusId) (o : Bit) (s : State) :
    s.configured b o = s.log (.event (encode (.config b o))) := rfl
@[simp] theorem State.sampleFlag_eq (f : Flag) (s : State) :
    s.sampleFlag f = s.tookBit.log (.event (encode (.sample s.tbus f s.drawBit))) := rfl
@[simp] theorem State.receiveResponse_eq (c : Nat) (s : State) :
    s.receiveResponse c = s.onCaller c CallerPort.receive := rfl

/-! ### Draws -/

theorem State.drawBit_script {s : State} {v : Bit} {l : List Bit} (h : s.sampleScript = v :: l) : s.drawBit = v := by
  simp [State.drawBit, h]
theorem State.drawBit_free {s : State} (h : s.sampleScript = []) : s.drawBit = Config.busSample s.draws := by
  simp [State.drawBit, h]
theorem State.tookBit_script {s : State} {v : Bit} {l : List Bit} (h : s.sampleScript = v :: l) :
    s.tookBit = { s with sampleScript := l } := by simp [State.tookBit, h]
theorem State.tookBit_free {s : State} (h : s.sampleScript = []) : s.tookBit = { s with draws := s.draws + 1 } := by
  simp [State.tookBit, h]
theorem State.drawByte_script {s : State} {v : Byte} {l : List Byte} (h : s.rxScript = v :: l) : s.drawByte = v := by
  simp [State.drawByte, h]
theorem State.drawByte_free {s : State} (h : s.rxScript = []) : s.drawByte = Config.busByte s.draws := by
  simp [State.drawByte, h]
theorem State.tookByte_script {s : State} {v : Byte} {l : List Byte} (h : s.rxScript = v :: l) :
    s.tookByte = { s with rxScript := l } := by simp [State.tookByte, h]
theorem State.tookByte_free {s : State} (h : s.rxScript = []) : s.tookByte = { s with draws := s.draws + 1 } := by
  simp [State.tookByte, h]

/-! ### Outcomes -/

@[simp] theorem andThen_next (s : State) (f : State → Out) : andThen (.next s) f = f s := rfl
@[simp] theorem andThen_fault (r : Fault) (f : State → Out) : andThen (.fault r) f = .fault r := rfl
@[simp] theorem andThen_refused (r : Refusal) (f : State → Out) : andThen (.refused r) f = .refused r := rfl

/-- A composed outcome is a next state only through a next state. -/
theorem andThen_eq_next {o : Out} {f : State → Out} {t : State} (h : andThen o f = .next t) :
    ∃ s, o = .next s ∧ f s = .next t := by
  cases o with
  | next s => exact ⟨s, rfl, h⟩
  | fault r => cases h
  | refused r => cases h

@[simp] theorem runSteps_zero (s : State) : runSteps 0 s = .next s := rfl
theorem runSteps_succ (k : Nat) (s : State) : runSteps (k + 1) s = andThen (step s) (runSteps k) := rfl

/-- A run of `k + n` steps is a run of `k` steps and then one of `n`. -/
theorem runSteps_add (k n : Nat) (s : State) : runSteps (k + n) s = andThen (runSteps k s) (runSteps n) := by
  induction k generalizing s with
  | zero => simp
  | succ k ih =>
    rw [Nat.succ_add, runSteps_succ, runSteps_succ]
    cases step s with
    | next t => exact ih t
    | fault r => rfl
    | refused r => rfl

end Sys2Proof.Machine
end

