-- ==== Sys2Proof/Laws/Steps.lean ====
section
/-! SUPPORT. What each shared operation can do, said once: memory writes, acceptance checks, the controller's step and the
turns of the other agents. -/

namespace Sys2Proof.Machine

/-! ### Memory writes and the received byte -/

theorem State.memWrite_inside {s : State} {a : Nat} {v : Byte} (h : a < 2 ^ s.cfg.addrWidth) :
    s.memWrite a v = .next { s with mem := s.mem.write a v, hist := s.hist ++ [.memw a v] } := if_pos h

theorem State.memWrite_outside {s : State} {a : Nat} {v : Byte} (h : ¬ a < 2 ^ s.cfg.addrWidth) :
    s.memWrite a v = .fault .addressOutsideMemory := if_neg h

/-- R_RXBYTE inside the address space (43_read.md R167). -/
theorem State.receiveByte_inside {s : State} (h : s.tbuf + s.toff.toNat < 2 ^ s.cfg.addrWidth) :
    s.receiveByte = .next { s.tookByte with
      mem := s.mem.write (s.tbuf + s.toff.toNat) s.drawByte
      hist := s.hist ++ [.event (encode (.rx s.tbus s.drawByte)), .memw (s.tbuf + s.toff.toNat) s.drawByte]
      toff := s.toff + 1
      trem := s.trem - 1 } := by
  unfold State.receiveByte
  rw [State.memWrite_inside (by simpa using h)]
  simp [State.log]

theorem State.receiveByte_outside {s : State} (h : ¬ s.tbuf + s.toff.toNat < 2 ^ s.cfg.addrWidth) :
    s.receiveByte = .fault .addressOutsideMemory := by
  unfold State.receiveByte
  rw [State.memWrite_outside (by simpa using h)]
  rfl

/-! ### Acceptance checks (60_exceptions.md R215) -/

theorem State.checkDevice_ok {s : State} {d : DevId} {b : BusId} :
    s.checkDevice d = .ok b ↔ s.phase = .idle ∧ s.cfg.devmap[d.toNat]? = some b := by
  unfold State.checkDevice State.busOf
  split
  · rename_i hp
    split <;> rename_i hb <;> simp [hp, hb]
  · rename_i hp
    simp [hp]

theorem State.checkBus_ok {s : State} {d : DevId} {b : BusId} :
    s.checkBus d = .ok b ↔ s.phase = .idle ∧ s.cfg.devmap[d.toNat]? = some b ∧ s.busInit b = true := by
  unfold State.checkBus
  split
  · rename_i b' hb
    have hc := State.checkDevice_ok.mp hb
    split
    · rename_i hi
      rw [hc.2]
      constructor
      · intro h
        cases h
        exact ⟨hc.1, rfl, hi⟩
      · rintro ⟨-, h, -⟩
        cases h
        rfl
    · rename_i hi
      rw [hc.2]
      constructor
      · intro h
        cases h
      · rintro ⟨-, h, h'⟩
        cases h
        exact absurd h' hi
  · rename_i r hr
    constructor
    · intro h
      cases h
    · rintro ⟨h1, h2, -⟩
      rw [State.checkDevice_ok.mpr ⟨h1, h2⟩] at hr
      cases hr

theorem State.checkRead_ok {s : State} {d : DevId} {l : Byte} {b : BusId} :
    s.checkRead d l = .ok b ↔ s.phase = .idle ∧ s.cfg.devmap[d.toNat]? = some b ∧ s.busInit b = true ∧
      (l = 0 → s.cfg.zeroLenPolicy = .source) ∧ s.cmdBuf + s.cmdCap ≤ 2 ^ s.cfg.addrWidth ∧ l.toNat ≤ s.cmdCap := by
  have hz : ¬ (l = 0 ∧ s.cfg.zeroLenPolicy = .refuse) ↔ (l = 0 → s.cfg.zeroLenPolicy = .source) := by
    cases s.cfg.zeroLenPolicy <;> simp
  have hf : s.bufferFits l = true ↔ s.cmdBuf + s.cmdCap ≤ 2 ^ s.cfg.addrWidth ∧ l.toNat ≤ s.cmdCap := by
    simp only [State.bufferFits, Bool.and_eq_true, decide_eq_true_eq]
    rfl
  unfold State.checkRead
  split
  · rename_i b' hb
    obtain ⟨h1, h2, h3⟩ := State.checkBus_ok.mp hb
    rw [← hz, ← hf]
    split
    · rename_i hc
      simp [hc]
    · rename_i hc
      split
      · rename_i hfit
        simp only [Except.ok.injEq, h1, h2, Option.some.injEq, true_and, hfit, and_true]
        exact ⟨fun h => h ▸ ⟨rfl, h3, hc⟩, fun h => h.1⟩
      · rename_i hfit
        simp [hfit]
  · rename_i r hr
    constructor
    · intro h
      cases h
    · rintro ⟨h1, h2, h3, -⟩
      rw [State.checkBus_ok.mpr ⟨h1, h2, h3⟩] at hr
      cases hr

/-! ### Commands -/

/-- An INIT is accepted for a known device while no operation is in flight, or refused. -/
theorem State.acceptInit_cases (s : State) (d : DevId) :
    (∃ b, s.checkDevice d = .ok b ∧ s.acceptInit d = s.initialise d b) ∨
    (∃ e, s.checkDevice d = .error e ∧ s.acceptInit d = s.refuse e) := by
  unfold State.acceptInit
  cases h : s.checkDevice d with
  | ok b => exact .inl ⟨b, rfl, rfl⟩
  | error e => exact .inr ⟨e, rfl, rfl⟩

/-- A write is accepted on an initialised bus, or refused. -/
theorem State.acceptWrite_cases (s : State) (d : DevId) (a : Addr7) (r v : Byte) :
    (∃ b, s.checkBus d = .ok b ∧
      s.acceptWrite d a r v = { s.loadTransaction b a r .wBusfree with tdata := v }) ∨
    (∃ e, s.checkBus d = .error e ∧ s.acceptWrite d a r v = s.refuse e) := by
  unfold State.acceptWrite
  cases h : s.checkBus d with
  | ok b => exact .inl ⟨b, rfl, rfl⟩
  | error e => exact .inr ⟨e, rfl, rfl⟩

/-- A read is accepted, or refused. -/
theorem State.acceptRead_cases (s : State) (d : DevId) (a : Addr7) (r l : Byte) :
    (∃ b, s.checkRead d l = .ok b ∧
      s.acceptRead d a r l = { s.loadTransaction b a r .rBusfree with
        tlen := l, toff := 0, trem := l, tbuf := s.cmdBuf, tcap := s.cmdCap }) ∨
    (∃ e, s.checkRead d l = .error e ∧ s.acceptRead d a r l = s.refuse e) := by
  unfold State.acceptRead
  cases h : s.checkRead d l with
  | ok b => exact .inl ⟨b, rfl, rfl⟩
  | error e => exact .inr ⟨e, rfl, rfl⟩

/-- What an executed instruction can do: be refused, initialise a bus, start a transaction, answer GETERR, or log an event. -/
theorem exec_cases {i : Instr} {s t : State} (h : exec i s = .next t) :
    (∃ e, i.isCommand = true ∧ t = s.refuse e) ∨
    (∃ d b, i = .init d ∧ s.checkDevice d = .ok b ∧ t = s.initialise d b) ∨
    (∃ d a r v b, (i = .write d a r v ∨ i = .writec a r v ∧ d = s.curdev) ∧ s.checkBus d = .ok b ∧
      t = { s.loadTransaction b a r .wBusfree with tdata := v }) ∨
    (∃ d a r l b, (i = .read d a r l ∨ i = .readc a r l ∧ d = s.curdev) ∧ s.checkRead d l = .ok b ∧
      t = { s.loadTransaction b a r .rBusfree with
        tlen := l, toff := 0, trem := l, tbuf := s.cmdBuf, tcap := s.cmdCap }) ∨
    (i = .geterr ∧ t = s.onCaller s.cmdCaller (CallerPort.gotValue s.errcnt)) ∨
    (i.isCommand = false ∧ t = s.log (.event (encode i))) := by
  have write : ∀ d a r v, Host.Outcome.next (s.acceptWrite d a r v) = (Host.Outcome.next t : Out) →
      (∃ e, t = s.refuse e) ∨ ∃ b, s.checkBus d = .ok b ∧ t = { s.loadTransaction b a r .wBusfree with tdata := v } := by
    intro d a r v h
    cases h
    rcases s.acceptWrite_cases d a r v with ⟨b, hb, e⟩ | ⟨e, -, h⟩
    · exact .inr ⟨b, hb, e⟩
    · exact .inl ⟨e, h⟩
  have read : ∀ d a r l, Host.Outcome.next (s.acceptRead d a r l) = (Host.Outcome.next t : Out) →
      (∃ e, t = s.refuse e) ∨ ∃ b, s.checkRead d l = .ok b ∧ t = { s.loadTransaction b a r .rBusfree with
        tlen := l, toff := 0, trem := l, tbuf := s.cmdBuf, tcap := s.cmdCap } := by
    intro d a r l h
    cases h
    rcases s.acceptRead_cases d a r l with ⟨b, hb, e⟩ | ⟨e, -, h⟩
    · exact .inr ⟨b, hb, e⟩
    · exact .inl ⟨e, h⟩
  cases i with
  | init d =>
    cases h
    rcases s.acceptInit_cases d with ⟨b, hb, e⟩ | ⟨e, -, h⟩
    · exact .inr (.inl ⟨d, b, rfl, hb, e⟩)
    · exact .inl ⟨e, rfl, h⟩
  | write d a r v =>
    rcases write d a r v h with ⟨e, he⟩ | ⟨b, hb, e⟩
    · exact .inl ⟨e, rfl, he⟩
    · exact .inr (.inr (.inl ⟨d, a, r, v, b, .inl rfl, hb, e⟩))
  | writec a r v =>
    rcases write s.curdev a r v h with ⟨e, he⟩ | ⟨b, hb, e⟩
    · exact .inl ⟨e, rfl, he⟩
    · exact .inr (.inr (.inl ⟨s.curdev, a, r, v, b, .inr ⟨rfl, rfl⟩, hb, e⟩))
  | read d a r l =>
    rcases read d a r l h with ⟨e, he⟩ | ⟨b, hb, e⟩
    · exact .inl ⟨e, rfl, he⟩
    · exact .inr (.inr (.inr (.inl ⟨d, a, r, l, b, .inl rfl, hb, e⟩)))
  | readc a r l =>
    rcases read s.curdev a r l h with ⟨e, he⟩ | ⟨b, hb, e⟩
    · exact .inl ⟨e, rfl, he⟩
    · exact .inr (.inr (.inr (.inl ⟨s.curdev, a, r, l, b, .inr ⟨rfl, rfl⟩, hb, e⟩)))
  | geterr => cases h; exact .inr (.inr (.inr (.inr (.inl ⟨rfl, rfl⟩))))
  | begin b e st d n sa => cases h; exact .inr (.inr (.inr (.inr (.inr ⟨rfl, rfl⟩))))
  | tx b v => cases h; exact .inr (.inr (.inr (.inr (.inr ⟨rfl, rfl⟩))))
  | rx b v => cases h; exact .inr (.inr (.inr (.inr (.inr ⟨rfl, rfl⟩))))
  | clrstop b => cases h; exact .inr (.inr (.inr (.inr (.inr ⟨rfl, rfl⟩))))
  | sample b f v => cases h; exact .inr (.inr (.inr (.inr (.inr ⟨rfl, rfl⟩))))
  | config b o => cases h; exact .inr (.inr (.inr (.inr (.inr ⟨rfl, rfl⟩))))

/-! ### The controller -/

/-- What one controller step can do. -/
theorem State.controllerStep_cases {s t : State} (h : s.controllerStep = .next t) :
    (s.phase = .idle ∧ t = s) ∨
    (∃ u, s.phase ≠ .idle ∧ s.stage = .entry ∧ s.entryAction = .next u ∧
      ((∃ w, waitOf s.phase = some w ∧ t = { u.arm (Params.budget s.cfg w.budget) with stage := .poll }) ∨
        (waitOf s.phase = none ∧ t = u.leavePhase))) ∨
    (∃ w, s.phase ≠ .idle ∧ s.stage = .poll ∧ waitOf s.phase = some w ∧
      ((s.drawBit = w.want ∧ t = { s.sampleFlag w.flag with phase := w.successor, stage := .entry }) ∨
        (s.drawBit ≠ w.want ∧ t = (s.sampleFlag w.flag).failedSample))) := by
  unfold State.controllerStep at h
  split at h
  · rename_i hp
    cases h
    exact .inl ⟨hp, rfl⟩
  · rename_i hp
    cases hs : s.stage with
    | entry =>
      simp only [hs] at h
      obtain ⟨u, hu, hn⟩ := andThen_eq_next h
      refine .inr (.inl ⟨u, hp, rfl, hu, ?_⟩)
      cases hw : waitOf s.phase with
      | some w =>
        simp only [hw] at hn
        cases hn
        exact .inl ⟨w, rfl, rfl⟩
      | none =>
        simp only [hw] at hn
        cases hn
        exact .inr ⟨rfl, rfl⟩
    | poll =>
      simp only [hs, State.pollStep] at h
      cases hw : waitOf s.phase with
      | some w =>
        simp only [hw, Wait.satisfiedBy, decide_eq_true_eq] at h
        refine .inr (.inr ⟨w, hp, rfl, rfl, ?_⟩)
        split at h
        · rename_i hd
          cases h
          exact .inl ⟨hd, rfl⟩
        · rename_i hd
          cases h
          exact .inr ⟨hd, rfl⟩
      | none =>
        simp only [hw] at h
        cases h

/-! ### Turns -/

/-- Whether a caller can move is read off its port. -/
theorem State.canMove_eq {s : State} {c : Nat} {p : CallerPort} (h : s.callers[c]? = some p) :
    s.canMove c = !p.outstanding := by simp [State.canMove, h]

/-- Only a member of `CALLERS` with nothing outstanding can move. -/
theorem State.canMove_true {s : State} {c : Nat} :
    s.canMove c = true ↔ ∃ p, s.callers[c]? = some p ∧ p.outstanding = false := by
  unfold State.canMove
  split <;> rename_i h <;> simp [h]

/-- The refusal as one record update. -/
theorem State.refuse_eq (s : State) (r : RefuseReason) :
    s.refuse r = { s with refused := some (s.refused.getD r) } := by
  unfold State.refuse
  split
  · rename_i e h
    cases s
    simp_all
  · rename_i h
    simp [h]

theorem step_agenda_nil {s : State} (h : s.agenda = []) : step s = s.controllerStep := by
  simp [step, State.advance, h]

theorem step_agenda_cons {s : State} {t : Turn} {rest : List Turn} (h : s.agenda = t :: rest) :
    step s = ({ s with agenda := rest }).takeTurn t := by
  simp [step, State.advance, h]

/-- What one step can do: a controller step, a command, an undecodable word, another caller action, an event, or a turn that
passes. `u` is the state with the turn taken off the agenda. -/
theorem step_cases {s t : State} (h : step s = .next t) :
    (s.agenda = [] ∧ s.controllerStep = .next t) ∨
    (∃ a u, u = { s with agenda := s.agenda.tail } ∧ s.agenda.head? = some a ∧
      ((a = .controller ∧ u.controllerStep = .next t) ∨
       (t = u) ∨
       (∃ c w buf cap i, a = .issue c w buf cap ∧ u.canMove c = true ∧ decodeCommand w = .ok i ∧
          exec i (u.latchCommand c w buf cap) = .next t) ∨
       (∃ c w buf cap e, a = .issue c w buf cap ∧ u.canMove c = true ∧ decodeCommand w = .error e ∧
          t = (u.latchCommand c w buf cap).refuse e) ∨
       (∃ c, a = .receive c ∧ t = u.onCaller c CallerPort.receive) ∨
       (∃ c addr n, a = .load c addr n ∧ u.canMove c = true ∧ addr + n ≤ 2 ^ s.cfg.addrWidth ∧
          t = u.onCaller c fun p => { p with seen := s.mem.readMany addr n }) ∨
       (∃ c addr v, a = .store c addr v ∧ u.canMove c = true ∧ addr < 2 ^ s.cfg.addrWidth ∧
          t = { u with mem := s.mem.write addr v }) ∨
       (∃ w i, a = .busEvent w ∧ decodeEvent w = .ok i ∧ exec i u = .next t))) := by
  cases ha : s.agenda with
  | nil => exact .inl ⟨rfl, by rwa [step_agenda_nil ha] at h⟩
  | cons a rest =>
    rw [step_agenda_cons ha] at h
    refine .inr ⟨a, { s with agenda := rest }, by rw [List.tail_cons], rfl, ?_⟩
    cases a with
    | controller => exact .inl ⟨rfl, h⟩
    | issue c w buf cap =>
      simp only [State.takeTurn] at h
      split at h
      · rename_i hc
        simp only [State.runCommand] at h
        cases hd : decodeCommand w with
        | ok i =>
          simp only [hd] at h
          exact .inr (.inr (.inl ⟨c, w, buf, cap, i, rfl, hc, hd, h⟩))
        | error e =>
          simp only [hd] at h
          cases h
          exact .inr (.inr (.inr (.inl ⟨c, w, buf, cap, e, rfl, hc, hd, rfl⟩)))
      · cases h; exact .inr (.inl rfl)
    | receive c =>
      cases h
      exact .inr (.inr (.inr (.inr (.inl ⟨c, rfl, rfl⟩))))
    | load c addr n =>
      simp only [State.takeTurn] at h
      split at h
      · rename_i hc
        simp only [State.callerLoad] at h
        split at h
        · rename_i hs
          cases h
          exact .inr (.inr (.inr (.inr (.inr (.inl ⟨c, addr, n, rfl, hc, of_decide_eq_true hs, rfl⟩)))))
        · cases h
      · cases h; exact .inr (.inl rfl)
    | store c addr v =>
      simp only [State.takeTurn] at h
      split at h
      · rename_i hc
        simp only [State.callerStore] at h
        split at h
        · rename_i hs
          cases h
          exact .inr (.inr (.inr (.inr (.inr (.inr (.inl ⟨c, addr, v, rfl, hc, of_decide_eq_true hs, rfl⟩))))))
        · cases h
      · cases h; exact .inr (.inl rfl)
    | busEvent w =>
      simp only [State.takeTurn, State.runEvent] at h
      cases hd : decodeEvent w with
      | ok i =>
        simp only [hd] at h
        exact .inr (.inr (.inr (.inr (.inr (.inr (.inr ⟨w, i, rfl, hd, h⟩))))))
      | error e =>
        simp only [hd] at h
        cases h

end Sys2Proof.Machine
end

