-- ==== Sys2Proof/Laws/Sequencer.lean ====
section
/-! SUPPORT. What the phase table says of every phase, once: its waits and successors, its budgets, what its entry actions leave
alone, and which callers a response reaches. -/

namespace Sys2Proof.Machine

/-- The successor of a wait: not IDLE, of the same direction, and reached from which phases. -/
theorem waitOf_successor {p : Phase} {w : Wait} (h : waitOf p = some w) :
    w.successor ≠ .idle ∧ w.successor.isRead = p.isRead ∧
    (w.successor = .rRecv ∨ w.successor = .rRxbyte → p = .rRecv) ∧
    (w.successor = .rStop ∨ w.successor = .rClrstop → p = .rStop) ∧
    (w.successor = .rBusfree ∨ w.successor = .rAddr ∨ w.successor = .rReg ∨ w.successor = .rReadcfg →
      p = .rBusfree ∨ p = .rAddr ∨ p = .rReg) := by
  cases p <;> simp only [waitOf, Option.some.injEq, reduceCtorEq] at h <;> subst h <;> simp [Phase.isRead]

/-- Every budget is at least 1 (40_timer.md R109). -/
theorem budget_pos {p : Params} (h : 1 ≤ p.shortBudget) (b : Budget) : 1 ≤ Params.budget p b := by
  cases b <;> simp only [Params.budget, Params.longBudget, Params.readSetupBudget]
  · omega
  · omega
  · cases p.readSetup <;> simp <;> omega

/-- The budget of the two read-setup waits, as the parameter names it (00_scope.md R7). -/
theorem Params.readSetupBudget_eq (p : Params) :
    p.readSetupBudget = if p.readSetup = .short then p.shortBudget else 10 * p.shortBudget := by
  unfold Params.readSetupBudget
  cases p.readSetup <;> rfl

/-- What no entry action touches. -/
theorem State.entryAction_frame {s u : State} (h : s.entryAction = .next u) :
    u.phase = s.phase ∧ u.tbus = s.tbus ∧ u.tsaddr = s.tsaddr ∧ u.treg = s.treg ∧ u.tdata = s.tdata ∧ u.tlen = s.tlen ∧
    u.tbuf = s.tbuf ∧ u.tcap = s.tcap ∧ u.tcaller = s.tcaller ∧ u.curdev = s.curdev ∧ u.buses = s.buses ∧ u.cfg = s.cfg ∧
    u.errcnt = s.errcnt ∧ u.callers = s.callers ∧ u.agenda = s.agenda ∧ u.refused = s.refused := by
  unfold State.entryAction at h
  cases hp : s.phase <;> rw [hp] at h <;> simp only at h
  all_goals first
    | (cases h; simp [hp]; done)
    | skip
  by_cases hi : s.tbuf + s.toff.toNat < 2 ^ s.cfg.addrWidth
  · rw [State.receiveByte_inside hi] at h
    cases h
    simp [hp]
  · rw [State.receiveByte_outside hi] at h
    cases h

/-- Outside R_RXBYTE an entry action is a history item or nothing. -/
theorem State.entryAction_log {s u : State} (hp : s.phase ≠ .rRxbyte) (h : s.entryAction = .next u) :
    u = s ∨ ∃ i : Instr, i.isCommand = false ∧ u = s.log (.event (encode i)) := by
  unfold State.entryAction at h
  cases hq : s.phase <;> rw [hq] at h <;> simp only at h
  all_goals first
    | exact absurd hq hp
    | (cases h; exact .inl rfl)
    | (cases h; exact .inr ⟨_, rfl, rfl⟩)

/-- A change of one caller's port leaves the other callers as they were. -/
theorem State.awaiting_modify_other {s t : State} {c d : Nat} {f : CallerPort → CallerPort}
    (h : t.callers = s.callers.modify c f) (hd : d ≠ c) : t.awaiting d = s.awaiting d := by
  simp only [State.awaiting, h, List.getElem?_modify, Ne.symm hd]
  simp

/-- A caller that was given `RSP_OK` waits no longer for its delivery. -/
theorem State.awaiting_gotOk {s t : State} {c : Nat} {v : Bit}
    (h : t.callers = s.callers.modify c (CallerPort.gotOk v)) : t.awaiting c = false := by
  simp only [State.awaiting, h, List.getElem?_modify]
  cases s.callers[c]? <;> simp [CallerPort.gotOk]

/-- An event word's instruction is no command. -/
theorem decodeEvent_isCommand {w : Word} {i : Instr} (h : decodeEvent w = .ok i) : i.isCommand = false := by
  unfold decodeEvent at h
  split at h
  all_goals try (split at h)
  all_goals try (split at h)
  all_goals (cases h; try rfl)

end Sys2Proof.Machine
end

