-- ==== Sys2Proof/Tests/Slice0.lean ====
section
/-! SUPPORT. The model's own tests, with expected results from the spec's examples and vectors, and a witness for the hypotheses of
every statement that has some. -/

namespace Sys2Proof.Tests

open Sys2Proof Sys2Proof.Machine

/-! ### States to test on -/

/-- The state an outcome goes on with; the reset state for a fault or a refusal. -/
def after (o : Out) : State :=
  match o with
  | .next s => s
  | .fault _ => State.reset
  | .refused _ => State.reset

/-- The outcome is this fault. -/
def faultsWith (o : Out) (f : Fault) : Bool :=
  match o with
  | .next _ => false
  | .fault g => decide (g = f)
  | .refused _ => false

/-- After `init 0` by caller 0: bus 0 initialised, bus 1 not (95_test_vectors.md section 2.6, "Start"). -/
def ready : State := after (exec (.init 0) State.reset)

/-- `ready` with the side operands `buf, cap` on the command port. -/
def readyBuf (buf cap : Nat) : State := { ready with cmdBuf := buf, cmdCap := cap }

/-- `write 0, 0x68, 0x75, 0x01` of caller 0 accepted. -/
def writing : State := after (exec (.write 0 0x68 0x75 0x01) ready)

/-- `read 0, 0x68, 0x3B, 6, 0x0100, 8` of caller 0 accepted. -/
def reading : State := after (exec (.read 0 0x68 0x3B 6) (readyBuf 0x0100 8))

/-- That read at the ENTRY of phase `p`. -/
def readAt (p : Phase) : State := { reading with phase := p }

/-- That write at the ENTRY of phase `p`. -/
def writeAt (p : Phase) : State := { writing with phase := p }

/-- `s` in POLL of phase `p` with `n` samples left and the bus's answers `l`. -/
def polling (s : State) (p : Phase) (n : Nat) (l : List Bit) : State :=
  { s with phase := p, stage := .poll, ctr := n, sampleScript := l }

/-- `s` with one turn to take. -/
def withTurn (t : Turn) (s : State) : State := { s with agenda := [t] }

/-- The reference configuration with zero-length reads accepted. -/
def sourcePolicy : State := { readyBuf 0x0100 8 with cfg := { Params.reference with zeroLenPolicy := .source } }

/-! ### Well-formedness: one ill-formed term for each check -/

theorem test_wf_begin_no_use : Instr.wf (.begin 0 .reload 0 .w 1 0xD0) = false := by decide
theorem test_wf_begin_two_bytes : Instr.wf (.begin 0 .softEnd 1 .w 2 0xD0) = false := by decide
theorem test_wf_begin_reload_read : Instr.wf (.begin 0 .reload 1 .r 1 0xD0) = false := by decide
theorem test_wf_begin_odd_address : Instr.wf (.begin 0 .reload 1 .w 1 0xD1) = false := by decide
theorem test_wf_begin_four_uses :
    (Instr.wf (.begin 0 .reload 1 .w 1 0xD0) && Instr.wf (.begin 0 .autoEnd 0 .w 1 0xD0) &&
      Instr.wf (.begin 0 .softEnd 1 .w 1 0xD0) && Instr.wf (.begin 0 .autoEnd 1 .r 255 0xFE)) = true := by decide
theorem test_wf_params_reference : Params.wf Params.reference = true := by decide
theorem test_wf_params_no_budget : Params.wf { Params.reference with shortBudget := 0 } = false := by decide
theorem test_wf_params_no_err_width : Params.wf { Params.reference with errWidth := 0 } = false := by decide
theorem test_wf_params_no_device : Params.wf { Params.reference with devmap := [] } = false := by decide
theorem test_wf_params_17_devices : Params.wf { Params.reference with devmap := List.replicate 17 0 } = false := by decide
theorem test_wf_params_no_bus : Params.wf { Params.reference with overclock := [] } = false := by decide
theorem test_wf_params_17_buses : Params.wf { Params.reference with overclock := List.replicate 17 0 } = false := by decide
theorem test_wf_params_unknown_bus : Params.wf { Params.reference with devmap := [2] } = false := by decide
theorem test_wf_params_wide_standard : Params.wf { Params.reference with timingStandard := 4 } = false := by decide
theorem test_wf_params_wide_overclock : Params.wf { Params.reference with timingOverclock := 4 } = false := by decide
theorem test_wf_params_no_caller : Params.wf { Params.reference with callers := 0 } = false := by decide

/-! ### Decoding, words written out field by field from 30_encoding.md R71, R72, R78, R79, R82 -/

/-- OP 1, DEV 1, bits [23:0] zero (E2). -/
theorem test_decode_init : decode 0b00010001000000000000000000000000 = .ok (.init 1) := by decide
/-- OP 2, DEV 1, RSV 0, ADDR7 0x7F, REG 0xFF, DATA 0xFF (E3). -/
theorem test_decode_write : decode 0b00100001011111111111111111111111 = .ok (.write 1 0x7F 0xFF 0xFF) := by decide
/-- OP 3, DEV 0, RSV 0, ADDR7 0x68, REG 0x75, DATA 0x01. -/
theorem test_decode_writec : decode 0b00110000011010000111010100000001 = .ok (.writec 0x68 0x75 0x01) := by decide
/-- OP 4, DEV 0, RSV 0, ADDR7 0x68, REG 0x3B, LEN 6. -/
theorem test_decode_read : decode 0b01000000011010000011101100000110 = .ok (.read 0 0x68 0x3B 6) := by decide
/-- OP 5, DEV 0, RSV 0, ADDR7 0x68, REG 0x3B, LEN 6 (E5). -/
theorem test_decode_readc : decode 0b01010000011010000011101100000110 = .ok (.readc 0x68 0x3B 6) := by decide
/-- OP 6, bits [27:0] zero (E6). -/
theorem test_decode_geterr : decode 0b01100000000000000000000000000000 = .ok .geterr := by decide
/-- KIND 8, BUS 1, END 1, START 1, DIR 1, zeros, NBYTES 255, SADDR 0xFE (E16). -/
theorem test_decode_begin :
    decode 0b10000001011100001111111111111110 = .ok (.begin 1 .autoEnd 1 .r 255 0xFE) := by decide
/-- KIND 9, BUS 0, zeros, the byte 0x75 (41_bus_interface.md R123). -/
theorem test_decode_tx : decode 0b10010000000000000000000001110101 = .ok (.tx 0 0x75) := by decide
/-- KIND 10, BUS 0, zeros, the byte 0x10 (41_bus_interface.md R124). -/
theorem test_decode_rx : decode 0b10100000000000000000000000010000 = .ok (.rx 0 0x10) := by decide
/-- KIND 11, BUS 1, payload zero. -/
theorem test_decode_clrstop : decode 0b10110001000000000000000000000000 = .ok (.clrstop 1) := by decide
/-- KIND 12, BUS 1, FLAG 5, zeros, VALUE 0 (E17). -/
theorem test_decode_sample : decode 0b11000001010100000000000000000000 = .ok (.sample 1 .rxReady 0) := by decide
/-- KIND 13, BUS 1, zeros, OVERCLOCK 1 (E18). -/
theorem test_decode_config : decode 0b11010001000000000000000000000001 = .ok (.config 1 1) := by decide

/-- E7 and E8: reserved `OP` codes. -/
theorem test_decode_reserved_op :
    decodeCommand 0x00000000 = .error .reservedOp ∧ decodeCommand 0x70000000 = .error .reservedOp ∧
      decodeCommand 0xF1234567 = .error .reservedOp := by decide
/-- E9 to E12: reserved fields. -/
theorem test_decode_reserved_field :
    decodeCommand 0x20E87501 = .error .reservedField ∧ decodeCommand 0x31687501 = .error .reservedField ∧
      decodeCommand 0x10000001 = .error .reservedField ∧ decodeCommand 0x60000001 = .error .reservedField ∧
      decodeCommand 0x6F000000 = .error .reservedField := by decide
/-- R79 and R82: a reserved kind, an unnamed payload bit, the reserved `END` 3, the reserved `FLAG` 6. -/
theorem test_decode_reserved_event :
    decodeEvent 0xE0000000 = .error .reservedKind ∧ decodeEvent 0x802101D0 = .error .reservedPayload ∧
      decodeEvent 0x80E001D0 = .error .reservedEnum ∧ decodeEvent 0xC0600000 = .error .reservedEnum := by decide
/-- E13 to E15: the bus address byte. -/
theorem test_saddr : saddrOf 0x68 = 0xD0 ∧ saddrOf 0x00 = 0x00 ∧ saddrOf 0x7F = 0xFE := by decide

/-! ### One step of each instruction -/

/-- Q2: `init 1` after reset. -/
theorem test_init :
    let t := after (exec (.init 1) State.reset)
    t.curdev = 1 ∧ t.buses = [⟨false, 0⟩, ⟨true, Params.reference.timingOverclock⟩] ∧ t.hist = [.event 0xD1000001] := by
  decide
/-- Q6: `init 15` is refused. -/
theorem test_init_unknown : (after (exec (.init 15) State.reset)).refused = some .unknownDevice := by decide
/-- 42_write.md R140: `write 0, 0x68, 0x75, 0x01` sets `TSADDR` = 0xD0. -/
theorem test_write :
    writing.phase = .wBusfree ∧ writing.tsaddr = 0xD0 ∧ writing.treg = 0x75 ∧ writing.tdata = 0x01 := by decide
/-- X6: `write 1` on the uninitialised bus 1. -/
theorem test_write_uninit : (after (exec (.write 1 0x68 0x75 0x01) ready)).refused = some .busUninit := by decide
/-- Z2: `writec` after reset. -/
theorem test_writec_before_init :
    (after (exec (.writec 0x68 0x75 0x01) State.reset)).refused = some .busUninit := by decide
/-- W9: `writec` after `init 0` is the write of W1. -/
theorem test_writec : after (exec (.writec 0x68 0x75 0x01) ready) = writing := by decide
/-- RD15: a buffer that ends at the top of the address space. -/
theorem test_read_top :
    (after (exec (.read 0 0x68 0x3B 8) (readyBuf 0xFFF8 8))).phase = .rBusfree ∧
      (after (exec (.read 0 0x68 0x3B 8) (readyBuf 0xFFF8 8))).tbuf = 0xFFF8 := by decide
/-- RD16: one byte further it is refused; X7 and X10: the order of the checks. -/
theorem test_read_refused :
    (after (exec (.read 0 0x68 0x3B 8) (readyBuf 0xFFF9 8))).refused = some .buffer ∧
      (after (exec (.read 1 0x68 0x3B 0) ready)).refused = some .busUninit ∧
      (after (exec (.read 2 0x68 0x3B 0) ready)).refused = some .unknownDevice := by decide
/-- RD11: `readc` after `init 0` is the read of RD1. -/
theorem test_readc : after (exec (.readc 0x68 0x3B 6) (readyBuf 0x0100 8)) = reading := by decide
/-- 43_read.md R172: `readc` with length 0. -/
theorem test_readc_zero : (after (exec (.readc 0x68 0x3B 0) (readyBuf 0x0100 8))).refused = some .zeroLength := by decide
/-- Q7: the count is read and stays. -/
theorem test_geterr :
    let t := after (exec .geterr { State.reset with errcnt := 3 })
    t.errcnt = 3 ∧ t.callers[0]?.map CallerPort.rspValue = some 3 := by decide
/-- X4: GETERR is admitted during a write. -/
theorem test_geterr_busy :
    (after (exec .geterr writing)).refused = none ∧ (after (exec .geterr writing)).phase = .wBusfree := by decide
/-- E16. -/
theorem test_begin : (after (exec (.begin 1 .autoEnd 1 .r 255 0xFE) State.reset)).hist = [.event 0x8170FFFE] := by decide
/-- 41_bus_interface.md R123. -/
theorem test_tx : (after (exec (.tx 0 0x75) State.reset)).hist = [.event 0x90000075] := by decide
/-- 41_bus_interface.md R124. -/
theorem test_rx : (after (exec (.rx 0 0x10) State.reset)).hist = [.event 0xA0000010] := by decide
/-- 41_bus_interface.md R125. -/
theorem test_clrstop : (after (exec (.clrstop 0) State.reset)).hist = [.event 0xB0000000] := by decide
/-- E17. -/
theorem test_sample : (after (exec (.sample 1 .rxReady 0) State.reset)).hist = [.event 0xC1500000] := by decide
/-- E18. -/
theorem test_config : (after (exec (.config 1 1) State.reset)).hist = [.event 0xD1000001] := by decide

/-! ### One step of the controller -/

/-- T1: the ENTRY of W_BUSFREE. -/
theorem test_entry_arms :
    let t := after (step writing)
    t.ctr = 20 ∧ t.stage = .poll ∧ t.hist = writing.hist := by decide
/-- T2: a busy sample. -/
theorem test_poll_counts :
    let t := after (step (polling writing .wBusfree 20 [1]))
    t.ctr = 19 ∧ t.phase = .wBusfree ∧ t.hist = writing.hist ++ [.event 0xC0000001] := by decide
/-- T9: the timeout that wraps the counter. -/
theorem test_timeout_wraps :
    let t := after (step (polling ({ writing with errcnt := 0xFF }) .wBusfree 1 [1]))
    t.errcnt = 0 ∧ t.phase = .idle ∧ t.callers[0]?.map CallerPort.response = some (some (.ok 0)) := by decide
/-- 43_read.md R167: `TOFF` = 0, `TREM` = 6 and a received 0x10. -/
theorem test_rxbyte :
    let t := after (step { readAt .rRxbyte with rxScript := [0x10] })
    t.mem = [(0x0100, 0x10)] ∧ t.toff = 1 ∧ t.trem = 5 ∧ t.phase = .rRecv := by decide
/-- X1: check 2 comes before check 3, through the command port of caller 1. -/
theorem test_refused_while_busy :
    (after (step (withTurn (.issue 1 0x20E87501 0 0) writing))).refused = some .reservedField := by decide
/-- Each fault by name: a word that is no event word, POLL without a wait, an address that names no byte. -/
theorem test_faults :
    faultsWith (step (withTurn (.busEvent 0xB0000001) ready)) (.reservedEvent .reservedPayload) = true ∧
      faultsWith (step (polling writing .wClrstop 1 [])) .pollWithoutWait = true ∧
      faultsWith (step (withTurn (.load 1 0xFFFF 2) writing)) .addressOutsideMemory = true := by decide
/-- The memory after reset is in its canonical form. -/
theorem test_reset_mem : Memory.wf State.reset.mem = true := by decide
/-- The host's placement runs the placed word first. -/
theorem test_placed_word :
    (after (step (State.reset.withFetchWord 32 0x11000000))).curdev = 1 ∧
      (after (step (State.reset.withFetchWord 32 0xB1000000))).hist = [.event 0xB1000000] := by decide

/-! ### Witnesses: concrete states and operands that meet the hypotheses of each statement -/

/-- The port of a caller that waits for nothing and was given no response. -/
def freePort : CallerPort := CallerPort.atReset

/-- Caller 1 is free and caller 0's write is in flight, with one sample left that will fail. -/
def lastSample : State := polling writing .wBusfree 1 [1]

/-- The read of `n` bytes into the last `n` bytes of memory. -/
def readTop (n : Byte) : State := after (exec (.read 0 0x68 0x3B n) (readyBuf (0x10000 - n.toNat) n.toNat))

/-- A read of length 0 accepted under `SOURCE`. -/
def readNone : State := after (exec (.read 0 0x68 0x3B 0) sourcePolicy)

theorem witness_CommandWordExamples :
    ((.geterr, 0x60000000) : Instr × Word) ∈ ([(.init 0, 0x10000000), (.geterr, 0x60000000)] : List (Instr × Word)) := by
  decide
theorem witness_EventWordExamples :
    ((.tx 0 0x75, 0x90000075) : Instr × Word) ∈ ([(.tx 0 0x75, 0x90000075)] : List (Instr × Word)) := by decide
theorem witness_EncodeOfDecode : decode 0x2FFFFFFF = .error (.command .reservedField) ∧ decode 0x2F7FFFFF = .ok (.write 15 0x7F 0xFF 0xFF) := by
  decide
/-- Each clause at the boundary of its range of `OP` codes. -/
theorem witness_CommandDecoderTotal :
    decodeCommand 0x0FFFFFFF = .error .reservedOp ∧ decodeCommand 0x70000000 = .error .reservedOp ∧
      decodeCommand 0x10FFFFFF = .error .reservedField ∧ decodeCommand 0x20800000 = .error .reservedField ∧
      decodeCommand 0x40800000 = .error .reservedField ∧ decodeCommand 0x3F000000 = .error .reservedField ∧
      decodeCommand 0x50800000 = .error .reservedField ∧ decodeCommand 0x68000000 = .error .reservedField ∧
      decodeCommand 0x1F000000 = .ok (.init 15) := by decide
theorem witness_EventDecoderTotal :
    decodeEvent 0x7FFFFFFF = .error .reservedKind ∧ decodeEvent 0xE0000000 = .error .reservedKind ∧
      decodeEvent 0x8F7FFFFF = .error .reservedPayload ∧ decodeEvent 0xDF000001 = .ok (.config 15 1) := by decide
/-- The smallest and the largest configuration. -/
theorem witness_ResetMeetsInvariant :
    Params.wf { Params.reference with
      shortBudget := 1, errWidth := 1, devmap := [0], overclock := [0], callers := 1 } = true ∧
    Params.wf { Params.reference with
      devmap := List.replicate 16 15, overclock := List.replicate 16 1
      timingStandard := 3, timingOverclock := 3 } = true := by decide
theorem witness_StepRunsIssuedCommand :
    let s := withTurn (.issue 1 0x11000000 0xFFFF 0) ready
    s.agenda = .issue 1 0x11000000 0xFFFF 0 :: [] ∧ s.callers[1]? = some freePort ∧ freePort.outstanding = false ∧
      decodeCommand 0x11000000 = .ok (.init 1) := by decide
theorem witness_StepRefusesUndecodableWord :
    let s := withTurn (.issue 1 0x00000000 0 0) writing
    s.agenda = .issue 1 0x00000000 0 0 :: [] ∧ s.callers[1]? = some freePort ∧ freePort.outstanding = false ∧
      decodeCommand 0x00000000 = .error .reservedOp := by decide
theorem witness_StepRunsEventWord :
    (withTurn (.busEvent 0xB0000000) ready).agenda = .busEvent 0xB0000000 :: [] ∧
      decodeEvent 0xB0000000 = .ok (.clrstop 0) ∧
      (withTurn (.busEvent 0xB0000001) ready).agenda = .busEvent 0xB0000001 :: [] ∧
      decodeEvent 0xB0000001 = .error .reservedPayload := by decide
theorem witness_WaitingCallerDoesNothing :
    let s := withTurn (.issue 0 0x60000000 0 0) writing
    s.agenda = .issue 0 0x60000000 0 0 :: [] ∧ s.callers[0]? = some freePort.await ∧ freePort.await.outstanding = true := by
  decide
theorem witness_WaitingCallerDoesNothing_memory :
    (withTurn (.load 0 0 1) writing).agenda = .load 0 0 1 :: [] ∧
      (withTurn (.store 0 0xFFFF 1) writing).agenda = .store 0 0xFFFF 1 :: [] ∧
      writing.callers[0]? = some freePort.await := by decide
theorem witness_ControllerMovesOnItsTurn :
    writing.agenda = [] ∧ (withTurn .controller writing).agenda = .controller :: [] := by decide
theorem witness_IdleControllerWaits : ready.phase = .idle := by decide
/-- Device 1 on the last bus. -/
theorem witness_InitCompletes :
    ready.phase = .idle ∧ ready.cfg.devmap[(1 : DevId).toNat]? = some 1 ∧ ready.cfg.overclock[(1 : BusId).toNat]? = some 1 ∧
      ready.buses[(1 : BusId).toNat]? = some BusHandle.atReset := by decide
theorem witness_WriteCompletes :
    ready.phase = .idle ∧ ready.cfg.devmap[(0 : DevId).toNat]? = some 0 ∧ ready.busInit 0 = true := by decide
theorem witness_WritecCompletes :
    ready.phase = .idle ∧ ready.cfg.devmap[ready.curdev.toNat]? = some 0 ∧ ready.busInit 0 = true := by decide
/-- The longest read, into a buffer that ends at the top of memory, with `LEN` = `CAP`. -/
theorem witness_ReadCompletes :
    let s := readyBuf 0xFF01 255
    s.phase = .idle ∧ s.cfg.devmap[(0 : DevId).toNat]? = some 0 ∧ s.busInit 0 = true ∧
      ((255 : Byte) ≠ 0 ∨ s.cfg.zeroLenPolicy = .source) ∧ s.cmdBuf + s.cmdCap ≤ 2 ^ s.cfg.addrWidth ∧
      (255 : Byte).toNat ≤ s.cmdCap := by decide
theorem witness_ReadcCompletes :
    let s := readyBuf 0xFF01 255
    s.phase = .idle ∧ s.cfg.devmap[s.curdev.toNat]? = some 0 ∧ s.busInit 0 = true ∧
      ((255 : Byte) ≠ 0 ∨ s.cfg.zeroLenPolicy = .source) ∧ s.cmdBuf + s.cmdCap ≤ 2 ^ s.cfg.addrWidth ∧
      (255 : Byte).toNat ≤ s.cmdCap := by decide
/-- A read of length 0 under `SOURCE`. -/
theorem witness_ReadCompletes_zero :
    let s := sourcePolicy
    s.phase = .idle ∧ s.cfg.devmap[(0 : DevId).toNat]? = some 0 ∧ s.busInit 0 = true ∧
      ((0 : Byte) ≠ 0 ∨ s.cfg.zeroLenPolicy = .source) ∧ s.cmdBuf + s.cmdCap ≤ 2 ^ s.cfg.addrWidth ∧
      (0 : Byte).toNat ≤ s.cmdCap := by decide
/-- Each reason first in turn, and no reason; the buffer one byte too short (X9, `LEN` = `CAP` + 1) and one byte too high. -/
theorem witness_FirstObjectionIsTheReason :
    writing.objections (.init 15) 15 = [.busy, .unknownDevice] ∧
      ready.objections (.init 2) 2 = [.unknownDevice] ∧
      ready.objections (.write 1 0 0 0) 1 = [.busUninit] ∧
      ready.objections (.read 0 0 0 0) 0 = [.zeroLength] ∧
      (readyBuf 0x0100 8).objections (.read 0 0 0 9) 0 = [.buffer] ∧
      (readyBuf 0x0100 8).objections (.read 0 0 0 8) 0 = [] ∧
      (readyBuf 0xFFF9 8).objections (.read 0 0 0 8) 0 = [.buffer] ∧
      (readyBuf 0xFFF8 8).objections (.readc 0 0 8) 0 = [] ∧
      ready.deviceOf (.read 0 0 0 9) = some 0 ∧ ready.deviceOf (.writec 0 0 0) = some 0 ∧
      ready.deviceOf (.init 2) = some 2 := by decide
/-- The model's choice of log entry 16: a `CURDEV` that is no known device. -/
theorem witness_FirstObjectionIsTheReason_curdev :
    let s := { readyBuf 0x0100 8 with curdev := 2 }
    s.deviceOf (.readc 0 0 8) = some 2 ∧ s.objections (.readc 0 0 8) 2 = [.unknownDevice, .busUninit] := by decide
theorem witness_RefusalChangesOnlyTheMark :
    let s := withTurn (.issue 1 0x10000000 0 0) writing
    step s = .next (after (step s)) ∧ (after (step s)).refused ≠ s.refused := ⟨rfl, by decide⟩
theorem witness_RefusedMarkIsSticky :
    let s := withTurn (.issue 1 0x00000000 0 0) { writing with refused := some .busUninit }
    step s = .next (after (step s)) ∧ s.refused = some .busUninit := ⟨rfl, by decide⟩
theorem witness_BusyRefusesAllButGeterr : writing.phase ≠ .idle ∧ Instr.isCommand (.init 1) = true ∧ Instr.isCommand .geterr = true := by
  decide
/-- After INIT 1 another caller's GETERR comes between, and the INIT 0 still to come is no obstacle. -/
theorem witness_ShorthandAfterInit :
    let s := { State.reset with agenda := [.issue 1 0x60000000 0 0, .issue 1 0x10000000 0 0] }
    let t := after (exec (.init 1) s)
    s.phase = .idle ∧ s.cfg.devmap[(1 : DevId).toNat]? = some 1 ∧ exec (.init 1) s = .next t ∧
      (∀ x ∈ t.agenda.take 1, x.issuesInit = false) ∧ (∃ x ∈ t.agenda, x.issuesInit = true) ∧
      runSteps 1 t = .next (after (runSteps 1 t)) :=
  ⟨rfl, rfl, rfl, by decide, by decide, rfl⟩
theorem witness_CurdevChangesOnlyByInit :
    let s := withTurn (.issue 0 0x11000000 0 0) ready
    step s = .next (after (step s)) ∧ (after (step s)).curdev ≠ s.curdev := ⟨rfl, by decide⟩
theorem witness_BusinitIsNeverCleared :
    let s := withTurn (.issue 0 0x11000000 0 0) ready
    step s = .next (after (step s)) ∧ s.busInit 0 = true ∧ s.busInit 1 = false ∧ (after (step s)).busInit 1 = true :=
  ⟨rfl, by decide⟩
theorem witness_ProfileChangesOnlyByInit :
    let s := withTurn (.issue 0 0x11000000 0 0) ready
    step s = .next (after (step s)) ∧ (after (step s)).buses[1]? ≠ s.buses[1]? := ⟨rfl, by decide⟩
theorem witness_ConfigurationNeverChanges : step writing = .next (after (step writing)) := rfl
/-- Each clause's phase. -/
theorem witness_WriteEntrySteps :
    (writeAt .wBusfree).stage = .entry ∧ (writeAt .wBusfree).phase = .wBusfree ∧ (writeAt .wAddr).phase = .wAddr ∧
      (writeAt .wReg).phase = .wReg ∧ (writeAt .wDatacfg).phase = .wDatacfg ∧ (writeAt .wData).phase = .wData := by decide
theorem witness_ReadEntrySteps :
    (readAt .rBusfree).stage = .entry ∧ (readAt .rBusfree).phase = .rBusfree ∧ (readAt .rStop).phase = .rStop ∧
      (readAt .rAddr).phase = .rAddr ∧ (readAt .rReg).phase = .rReg ∧ (readAt .rRecv).phase = .rRecv := by decide
theorem witness_ClearStopCompletes :
    (writeAt .wClrstop).stage = .entry ∧ (writeAt .wClrstop).phase = .wClrstop ∧ (readAt .rClrstop).phase = .rClrstop := by
  decide
theorem witness_ReadStartsBurst : (readAt .rReadcfg).stage = .entry ∧ (readAt .rReadcfg).phase = .rReadcfg := by decide
/-- The last address of memory, and the first beyond it. -/
theorem witness_ReceivedByteIsStored :
    let s := { readAt .rRxbyte with tbuf := 0xFFFF }
    s.stage = .entry ∧ s.phase = .rRxbyte ∧ s.mem.wf = true ∧ s.tbuf + s.toff.toNat < 2 ^ s.cfg.addrWidth ∧
      2 ^ s.cfg.addrWidth ≤ ({ s with toff := 1 }).tbuf + ({ s with toff := 1 }).toff.toNat := by decide
theorem witness_SatisfiedSampleEndsWait :
    let s := polling writing .wBusfree 1 [0]
    s.phase = .wBusfree ∧ s.stage = .poll ∧ s.drawBit = 0 := by decide
theorem witness_SatisfiedSampleEndsWait_stop :
    let s := polling reading .rStop 20 [1]
    s.phase = .rStop ∧ s.stage = .poll ∧ s.drawBit = 1 := by decide
theorem witness_FailedSampleCountsDown :
    let s := polling writing .wBusfree 2 [1]
    s.phase = .wBusfree ∧ s.stage = .poll ∧ s.drawBit = 1 ∧ 2 ≤ s.ctr := by decide
theorem witness_ExhaustedWaitTimesOut :
    lastSample.phase = .wBusfree ∧ lastSample.stage = .poll ∧ lastSample.drawBit = 1 ∧ lastSample.ctr = 1 := by decide
/-- Success at the first sample and at the `B`-th (T3, T5). -/
theorem witness_WaitSampleCount :
    let s := polling reading .rRecv 2 [0, 1]
    s.phase = .rRecv ∧ s.stage = .poll ∧ s.agenda = [] ∧ 1 ≤ s.ctr ∧ 2 ≤ s.ctr ∧
      s.sampleScript = List.replicate (2 - 1) 0 ++ 1 :: [] ∧
      (polling reading .rRecv 2 [1]).sampleScript = List.replicate (1 - 1) 0 ++ 1 :: [] := by decide
/-- Exhaustion after `B` samples (T6), and after one. -/
theorem witness_WaitSampleCount_timeout :
    let s := polling reading .rRecv 2 [0, 0]
    s.phase = .rRecv ∧ s.stage = .poll ∧ s.agenda = [] ∧ 1 ≤ s.ctr ∧ s.sampleScript = List.replicate s.ctr 0 ++ [] ∧
      (polling reading .rRecv 1 [0]).sampleScript = List.replicate 1 0 ++ [] := by decide
theorem witness_ImmediateWriteTrace :
    let s := { writing with sampleScript := [0, 1, 1, 1, 1] }
    s.phase = .wBusfree ∧ s.stage = .entry ∧ s.agenda = [] ∧ s.sampleScript = [0, 1, 1, 1, 1] ++ [] := by decide
/-- The read of one byte into the last byte of memory. -/
theorem witness_ImmediateReadTrace :
    let s := { readTop 1 with sampleScript := [0, 1, 1, 1, 1], rxScript := [0x5A] }
    s.phase = .rBusfree ∧ s.stage = .entry ∧ s.agenda = [] ∧ s.mem.wf = true ∧
      ([0x5A] : List Byte).length = s.tlen.toNat ∧ ([0x5A] : List Byte) ≠ [] ∧ s.toff = 0 ∧ s.trem = s.tlen ∧
      s.tbuf + s.tlen.toNat ≤ 2 ^ s.cfg.addrWidth ∧
      s.sampleScript = [0, 1, 1] ++ List.replicate 1 1 ++ [1] ++ [] ∧ s.rxScript = [0x5A] ++ [] := by decide
theorem witness_ZeroLengthRead :
    (ready.phase = .idle ∧ ready.cfg.devmap[(0 : DevId).toNat]? = some 0 ∧ ready.busInit 0 = true ∧
      ready.cfg.zeroLenPolicy = .refuse ∧ ready.cfg.devmap[ready.curdev.toNat]? = some 0) ∧
    let s := { readNone with sampleScript := [0, 1, 1, 1] }
    s.phase = .rBusfree ∧ s.stage = .entry ∧ s.agenda = [] ∧ s.tlen = 0 ∧ s.trem = 0 ∧
      s.sampleScript = [0, 1, 1, 1] ++ [] := by decide
theorem witness_WriteEndsWithinBound :
    writing.phase = .wBusfree ∧ writing.stage = .entry ∧ writing.agenda = [] ∧ 1 ≤ writing.cfg.shortBudget := by decide
/-- The longest read and a read of length 0. -/
theorem witness_ReadEndsWithinBound :
    (let s := readTop 255
     s.phase = .rBusfree ∧ s.stage = .entry ∧ s.agenda = [] ∧ 1 ≤ s.cfg.shortBudget ∧ s.mem.wf = true ∧ s.toff = 0 ∧
      s.trem = s.tlen ∧ s.tbuf + s.tlen.toNat ≤ 2 ^ s.cfg.addrWidth) ∧
    (let s := readNone
     s.phase = .rBusfree ∧ s.stage = .entry ∧ s.agenda = [] ∧ 1 ≤ s.cfg.shortBudget ∧ s.mem.wf = true ∧ s.toff = 0 ∧
      s.trem = s.tlen ∧ s.tbuf + s.tlen.toNat ≤ 2 ^ s.cfg.addrWidth) := by decide
/-- A read in the middle of its receive loop meets the invariant, and its step goes on. -/
theorem witness_StepKeepsInvariant :
    let s := { readAt .rRxbyte with toff := 5, trem := 1 }
    s.Inv ∧ step s = .next (after (step s)) := ⟨by constructor <;> decide, rfl⟩
/-- The read's POLL with one sample left. -/
theorem witness_StepKeepsInvariant_poll :
    let s := polling reading .rAddr 1 [0]
    s.Inv ∧ step s = .next (after (step s)) := ⟨by constructor <;> decide, rfl⟩
/-- Each kind of turn that must be lawful, at the top of memory. -/
theorem witness_NoFaultFromInvariant :
    (withTurn (.load 1 0xFFFF 1) writing).Inv ∧
      (∀ a ∈ (withTurn (.load 1 0xFFFF 1) writing).agenda.head?, a.lawful writing.cfg = true) ∧
      Turn.lawful writing.cfg (.store 1 0xFFFF 7) = true ∧ Turn.lawful writing.cfg (.busEvent 0xB0000000) = true :=
  ⟨by constructor <;> decide, by decide, by decide, by decide⟩
theorem witness_ErrcntChangesOnlyByTimeout :
    step lastSample = .next (after (step lastSample)) ∧ (after (step lastSample)).errcnt ≠ lastSample.errcnt := ⟨rfl, by decide⟩
theorem witness_ControllerEventsOnOperationBus :
    (readAt .rRxbyte).controllerStep = .next (after (readAt .rRxbyte).controllerStep) ∧
      (readAt .rRxbyte).tsaddr.getLsbD 0 = false := ⟨rfl, by decide⟩
theorem witness_PollTakesOneSample :
    lastSample.phase ≠ .idle ∧ lastSample.stage = .poll ∧ lastSample.controllerStep = .next (after lastSample.controllerStep) :=
  ⟨by decide, by decide, rfl⟩
/-- Each way `PHASE` may change: the table's successor after ENTRY and after POLL, `Complete(1)`, `Timeout()`. -/
theorem witness_OperationRegistersHold :
    (step (readAt .rRxbyte) = .next (after (step (readAt .rRxbyte))) ∧ (readAt .rRxbyte).phase ≠ .idle ∧
      (after (step (readAt .rRxbyte))).phase = .rRecv) ∧
    (step (writeAt .wClrstop) = .next (after (step (writeAt .wClrstop))) ∧
      (after (step (writeAt .wClrstop))).phase = .idle) ∧
    (step lastSample = .next (after (step lastSample)) ∧ (after (step lastSample)).phase = .idle) ∧
    (let s := { polling writing .wBusfree 1 [0] with agenda := [.controller] }
     step s = .next (after (step s)) ∧ (after (step s)).phase = .wAddr) :=
  ⟨⟨rfl, by decide, by decide⟩, ⟨rfl, by decide⟩, ⟨rfl, by decide⟩, rfl, by decide⟩
theorem witness_MemoryChangesOnlyWhereWritten :
    let s := { readAt .rRxbyte with rxScript := [0x10] }
    let t := withTurn (.store 1 0xFFFF 7) writing
    (step s = .next (after (step s)) ∧ (after (step s)).mem.read 0x0100 ≠ s.mem.read 0x0100) ∧
      (step t = .next (after (step t)) ∧ (after (step t)).mem.read 0xFFFF ≠ t.mem.read 0xFFFF) :=
  ⟨⟨rfl, by decide⟩, rfl, by decide⟩
theorem witness_FrameOfTransactionCommands :
    Instr.isTransaction (.write 0 0x68 0x75 0x01) = true ∧ Instr.readLength (.write 0 0x68 0x75 0x01) = none ∧
      exec (.write 0 0x68 0x75 0x01) ready = .next writing ∧ Instr.isTransaction (.read 0 0x68 0x3B 6) = true ∧
      Instr.readLength (.read 0 0x68 0x3B 6) ≠ none ∧ exec (.read 0 0x68 0x3B 6) (readyBuf 0x0100 8) = .next reading :=
  ⟨by decide, by decide, rfl, by decide, by decide, rfl⟩
theorem witness_FrameOfInitAndGeterr :
    exec (.init 0) State.reset = .next ready ∧ exec .geterr writing = .next (after (exec .geterr writing)) := ⟨rfl, rfl⟩
theorem witness_FrameOfBusEvents :
    Instr.isCommand (.clrstop 0) = false ∧ exec (.clrstop 0) ready = .next (after (exec (.clrstop 0) ready)) :=
  ⟨by decide, rfl⟩
/-- A caller whose response was delivered, and one whose response was not. -/
theorem witness_ResponseReleasesCaller :
    let s := withTurn (.receive 0) (after (step lastSample))
    let t := withTurn (.receive 0) writing
    (s.agenda = .receive 0 :: [] ∧ s.callers[0]? = some (freePort.await.gotOk 0)) ∧
      (t.agenda = .receive 0 :: [] ∧ t.callers[0]? = some freePort.await) := by decide
/-- Each clause at the top of memory. -/
theorem witness_CallerMemoryAccess :
    writing.callers[1]? = some freePort ∧ freePort.outstanding = false ∧ writing.mem.wf = true ∧
      (withTurn (.load 1 0xFFFF 1) writing).agenda = .load 1 0xFFFF 1 :: [] ∧ 0xFFFF + 1 ≤ 2 ^ writing.cfg.addrWidth ∧
      (withTurn (.store 1 0xFFFF 7) writing).agenda = .store 1 0xFFFF 7 :: [] ∧ 0xFFFF < 2 ^ writing.cfg.addrWidth ∧
      (withTurn (.load 1 0xFFFF 2) writing).agenda = .load 1 0xFFFF 2 :: [] ∧ 2 ^ writing.cfg.addrWidth < 0xFFFF + 2 ∧
      (withTurn (.store 1 0x10000 7) writing).agenda = .store 1 0x10000 7 :: [] ∧
      2 ^ writing.cfg.addrWidth ≤ 0x10000 := by decide
/-- Both orders of the race (Q8), with side operands that GETERR ignores and a turn to follow. -/
theorem witness_GeterrRacingTimeout :
    let s := { lastSample with agenda := .issue 1 0x60000000 0xFFFF 8 :: .controller :: [.receive 0] }
    let u := { lastSample with agenda := .controller :: .issue 1 0x60000000 0xFFFF 8 :: [.receive 0] }
    lastSample.callers[1]? = some freePort ∧ freePort.outstanding = false ∧
      runSteps 2 s = .next (after (runSteps 2 s)) ∧ runSteps 2 u = .next (after (runSteps 2 u)) :=
  ⟨by decide, by decide, rfl, rfl⟩
theorem witness_DrawsFollowScript :
    (polling writing .wBusfree 1 [1, 0]).sampleScript = 1 :: [0] ∧ writing.sampleScript = [] ∧
      ({ reading with rxScript := [0x10] }).rxScript = 0x10 :: [] ∧ reading.rxScript = [] := by decide

end Sys2Proof.Tests
end

section
/-! What an executed instruction does and leaves alone. -/

namespace Sys2Proof.Machine

/-- Every instruction has a next state in every state. -/
theorem exec_next (i : Instr) (s : State) : ∃ t, exec i s = .next t := by
  cases i <;> exact ⟨_, rfl⟩

/-- An event instruction logs its word and does nothing else (41_bus_interface.md R120 to R125). -/
theorem exec_event {i : Instr} {s : State} (h : i.isCommand = false) :
    exec i s = .next (s.log (.event (encode i))) := by
  cases i <;> cases h <;> rfl

/-- No instruction changes the configuration, `ERRCNT` or the reason of an earlier refusal. -/
theorem exec_keeps {i : Instr} {s t : State} (h : exec i s = .next t) :
    t.cfg = s.cfg ∧ t.errcnt = s.errcnt ∧ ∀ r, s.refused = some r → t.refused = some r := by
  rcases exec_cases h with ⟨e, -, rfl⟩ | ⟨d, b, -, -, rfl⟩ | ⟨d, a, r, v, b, -, -, rfl⟩ |
    ⟨d, a, r, l, b, -, -, rfl⟩ | ⟨-, rfl⟩ | ⟨-, rfl⟩
  · exact ⟨by simp, by simp, fun r hr => by simp [hr]⟩
  all_goals exact ⟨rfl, rfl, fun _ hr => hr⟩

/-- `CURDEV` and the BusHandles are written by an accepted INIT only (10_state.md R23 to R25). -/
theorem exec_registry {i : Instr} {s t : State} (h : exec i s = .next t) :
    (t.curdev = s.curdev ∧ t.buses = s.buses) ∨
    ∃ b, i = .init t.curdev ∧ s.phase = .idle ∧ s.cfg.devmap[t.curdev.toNat]? = some b ∧
      t.buses = s.buses.set b.toNat ⟨true, s.timingFor b⟩ := by
  rcases exec_cases h with ⟨e, -, rfl⟩ | ⟨d, b, hi, hd, rfl⟩ | ⟨d, a, r, v, b, -, -, rfl⟩ |
    ⟨d, a, r, l, b, -, -, rfl⟩ | ⟨-, rfl⟩ | ⟨-, rfl⟩
  case inr.inl =>
    obtain ⟨hp, hb⟩ := State.checkDevice_ok.mp hd
    exact .inr ⟨b, hi, hp, hb, rfl⟩
  case inl => exact .inl ⟨by simp, by simp⟩
  all_goals exact .inl ⟨rfl, rfl⟩

/-- While an operation is in flight an instruction can change the mark, the history and a caller's port only
(60_exceptions.md R221). -/
theorem exec_busy_frame {i : Instr} {s t : State} (hp : s.phase ≠ .idle) (h : exec i s = .next t) :
    t = { s with refused := t.refused, hist := t.hist, callers := t.callers } := by
  rcases exec_cases h with ⟨e, -, rfl⟩ | ⟨d, b, -, hd, -⟩ | ⟨d, a, r, v, b, -, hd, -⟩ |
    ⟨d, a, r, l, b, -, hd, -⟩ | ⟨-, rfl⟩ | ⟨-, rfl⟩
  · rw [State.refuse_eq]
  · exact absurd (State.checkDevice_ok.mp hd).1 hp
  · exact absurd (State.checkBus_ok.mp hd).1 hp
  · exact absurd (State.checkRead_ok.mp hd).1 hp
  · rfl
  · rfl

end Sys2Proof.Machine
end
section
/-! The controller's step as a relation with one named case per kind of move, and what each move leaves alone. -/

namespace Sys2Proof.Machine

/-- The event instructions that the entry action of the current phase performs (30_encoding.md R80). R_RXBYTE, whose entry
action also writes memory, is `State.receiveByte`. -/
def State.entryEvents (s : State) : List Instr :=
  match s.phase with
  | .wAddr => [.begin s.tbus .reload 1 .w 1 s.tsaddr]
  | .wReg => [.tx s.tbus s.treg]
  | .wDatacfg => [.begin s.tbus .autoEnd 0 .w 1 s.tsaddr]
  | .wData => [.tx s.tbus s.tdata]
  | .wClrstop => [.clrstop s.tbus]
  | .rAddr => [.begin s.tbus .softEnd 1 .w 1 s.tsaddr]
  | .rReg => [.tx s.tbus s.treg]
  | .rReadcfg => [.begin s.tbus .autoEnd 1 .r s.tlen s.tsaddr]
  | .rClrstop => [.clrstop s.tbus]
  | .idle | .wBusfree | .rBusfree | .rRecv | .rStop | .rRxbyte => []

/-- `s` with the events of its entry action in the history. -/
def State.entered (s : State) : State :=
  { s with hist := s.hist ++ s.entryEvents.map fun i => .event (encode i) }

/-- Outside R_RXBYTE the entry action logs its events and does nothing else; where it logs none, the state is as it was. -/
theorem State.entryAction_eq {s : State} (hp : s.phase ≠ .rRxbyte) : s.entryAction = .next s.entered := by
  unfold State.entryAction State.entered State.entryEvents
  cases h : s.phase <;> simp_all [State.log] <;> rw [← h]

/-- At most one event is performed on entry. -/
theorem State.entryEvents_length_le (s : State) : s.entryEvents.length ≤ 1 := by
  unfold State.entryEvents
  split <;> simp

/-- `s` after R_RXBYTE has received the byte drawn (43_read.md R167). -/
def State.storedByte (s : State) : State :=
  { s.tookByte with
    mem := s.mem.write (s.tbuf + s.toff.toNat) s.drawByte
    hist := s.hist ++ [.event (encode (.rx s.tbus s.drawByte)), .memw (s.tbuf + s.toff.toNat) s.drawByte]
    toff := s.toff + 1
    trem := s.trem - 1 }

/-- The moves of the controller (40_timer.md R101 to R106), each with the state it leads to. -/
inductive State.Moves (s : State) : State → Prop
  /-- IDLE has no step to take. -/
  | rest (hp : s.phase = .idle) : s.Moves s
  /-- ENTRY of a waiting phase: the entry action, and the countdown is armed. -/
  | arm {w : Wait} (hs : s.stage = .entry) (hw : waitOf s.phase = some w) :
      s.Moves { s.entered with ctr := Params.budget s.cfg w.budget, stage := .poll }
  /-- ENTRY of W_CLRSTOP or R_CLRSTOP: `Complete(1)`. -/
  | finish (hs : s.stage = .entry) (hp : s.phase = .wClrstop ∨ s.phase = .rClrstop) : s.Moves (s.entered.complete 1)
  /-- ENTRY of R_READCFG: into the receive loop. -/
  | burst (hs : s.stage = .entry) (hp : s.phase = .rReadcfg) : s.Moves s.entered.nextReceive
  /-- ENTRY of R_RXBYTE: one byte is stored, and the loop goes on or is left. -/
  | receive (hs : s.stage = .entry) (hp : s.phase = .rRxbyte) (ha : s.tbuf + s.toff.toNat < s.addrSpace) :
      s.Moves s.storedByte.nextReceive
  /-- POLL with a sample that satisfies the wait. -/
  | satisfied {w : Wait} (hs : s.stage = .poll) (hw : waitOf s.phase = some w) (hv : s.drawBit = w.want) :
      s.Moves { s.sampleFlag w.flag with phase := w.successor, stage := .entry }
  /-- POLL with a failed sample and samples left. -/
  | again {w : Wait} (hs : s.stage = .poll) (hw : waitOf s.phase = some w) (hc : s.ctr - 1 ≠ 0) :
      s.Moves { s.sampleFlag w.flag with ctr := s.ctr - 1 }
  /-- POLL with the last failed sample: `Timeout()`. -/
  | expire {w : Wait} (hs : s.stage = .poll) (hw : waitOf s.phase = some w) (hc : s.ctr - 1 = 0) :
      s.Moves ({ s.sampleFlag w.flag with ctr := s.ctr - 1 }).timeout

theorem ne_idle_of_waitOf {p : Phase} {w : Wait} (h : waitOf p = some w) : p ≠ .idle := by
  rintro rfl
  cases h

/-- The working phases without a wait (30_encoding.md R80). -/
theorem waitOf_eq_none {p : Phase} (h : waitOf p = none) (hp : p ≠ .idle) :
    (p = .wClrstop ∨ p = .rClrstop) ∨ p = .rReadcfg ∨ p = .rRxbyte := by
  cases p <;> simp_all [waitOf]

/-- A failed sample counts down, and the last one times out (40_timer.md R103, R104). -/
theorem State.moves_failedSample {s : State} {w : Wait} (hs : s.stage = .poll) (hw : waitOf s.phase = some w) :
    s.Moves (s.sampleFlag w.flag).failedSample := by
  have hctr : (s.sampleFlag w.flag).ctr = s.ctr := by simp
  unfold State.failedSample
  rw [hctr]
  split
  · next hc => exact .expire hs hw hc
  · next hc => exact .again hs hw hc

/-- An entry step of a phase without a wait. -/
theorem State.moves_leavePhase {s u : State} (hp : s.phase ≠ .idle) (hs : s.stage = .entry) (hw : waitOf s.phase = none)
    (hu : s.entryAction = .next u) : s.Moves u.leavePhase := by
  rcases waitOf_eq_none hw hp with hq | hq | hq
  · rw [State.entryAction_eq (by rcases hq with hq | hq <;> simp [hq])] at hu
    cases hu
    have : s.entered.leavePhase = s.entered.complete 1 := by
      rcases hq with hq | hq <;> simp [State.leavePhase, State.entered, hq]
    exact this ▸ .finish hs hq
  · rw [State.entryAction_eq (by simp [hq])] at hu
    cases hu
    have : s.entered.leavePhase = s.entered.nextReceive := by simp [State.leavePhase, State.entered, hq]
    exact this ▸ .burst hs hq
  · have hr : s.receiveByte = .next u := by simpa [State.entryAction, hq] using hu
    by_cases ha : s.tbuf + s.toff.toNat < s.addrSpace
    · rw [State.receiveByte_inside ha] at hr
      cases hr
      have : s.storedByte.leavePhase = s.storedByte.nextReceive := by simp [State.leavePhase, State.storedByte, hq]
      exact this ▸ .receive hs hq ha
    · rw [State.receiveByte_outside ha] at hr
      cases hr

/-- Every controller step is one of the moves. -/
theorem State.controllerStep_moves {s t : State} (h : s.controllerStep = .next t) : s.Moves t := by
  rcases State.controllerStep_cases h with ⟨hp, rfl⟩ | ⟨u, hp, hs, hu, hnext⟩ | ⟨w, -, hs, hw, hnext⟩
  · exact .rest hp
  · rcases hnext with ⟨w, hw, rfl⟩ | ⟨hw, rfl⟩
    · rw [State.entryAction_eq (by rintro hq; simp [hq, waitOf] at hw)] at hu
      cases hu
      exact .arm hs hw
    · exact State.moves_leavePhase hp hs hw hu
  · rcases hnext with ⟨hv, rfl⟩ | ⟨-, rfl⟩
    · exact .satisfied hs hw hv
    · exact State.moves_failedSample hs hw

/-! ### What a move leaves alone -/

/-- A sample touches the history and the source of the answers. -/
theorem State.sampleFlag_frame (f : Flag) (s : State) :
    s.sampleFlag f = { s with
      hist := s.hist ++ [.event (encode (.sample s.tbus f s.drawBit))]
      sampleScript := s.tookBit.sampleScript
      draws := s.tookBit.draws } := by
  unfold State.sampleFlag State.tookBit
  split <;> rfl

theorem State.tookByte_frame (s : State) :
    s.tookByte = { s with rxScript := s.tookByte.rxScript, draws := s.tookByte.draws } := by
  unfold State.tookByte
  split <;> rfl

/-- The fields a controller move may change; the configuration, the mark, `CURDEV`, the BusHandles, the command port, the
agenda and the registers an acceptance loads are not among them (10_state.md R28). -/
theorem State.Moves.frame {s t : State} (h : s.Moves t) :
    t = { s with
      errcnt := t.errcnt, phase := t.phase, stage := t.stage, ctr := t.ctr, toff := t.toff, trem := t.trem
      hist := t.hist, mem := t.mem, callers := t.callers
      sampleScript := t.sampleScript, rxScript := t.rxScript, draws := t.draws } := by
  cases h with
  | rest => rfl
  | arm => rfl
  | finish => rfl
  | burst => rfl
  | receive => unfold State.storedByte; rw [State.tookByte_frame]; rfl
  | satisfied => rw [State.sampleFlag_frame]
  | again => rw [State.sampleFlag_frame]
  | expire => rw [State.sampleFlag_frame]; rfl

/-! ### What a step is -/

/-- A step is the controller's, an executed command, or a turn that leaves every register of the controller but the mark
and the command port as it was. -/
theorem step_parts {s t : State} (h : step s = .next t) :
    ((s.agenda = [] ∨ s.agenda.head? = some .controller) ∧ ({ s with agenda := s.agenda.tail }).Moves t) ∨
    (∃ c w buf cap rest i, s.agenda = .issue c w buf cap :: rest ∧ decodeCommand w = .ok i ∧
      exec i (({ s with agenda := rest }).latchCommand c w buf cap) = .next t) ∨
    (t = { s with
        agenda := t.agenda, refused := t.refused, hist := t.hist, mem := t.mem, callers := t.callers
        cmdCaller := t.cmdCaller, cmdWord := t.cmdWord, cmdBuf := t.cmdBuf, cmdCap := t.cmdCap } ∧
      ∀ r, s.refused = some r → t.refused = some r) := by
  rcases step_cases h with ⟨ha, hc⟩ | ⟨a, u, rfl, ha, hturn⟩
  · have hs : ({ s with agenda := s.agenda.tail }) = s := by rw [ha, List.tail_nil, ← ha]
    exact .inl ⟨.inl ha, hs.symm ▸ State.controllerStep_moves hc⟩
  rcases hturn with ⟨rfl, hc⟩ | rfl | ⟨c, w, buf, cap, i, rfl, -, hd, he⟩ | ⟨c, w, buf, cap, e, rfl, -, -, rfl⟩ |
    ⟨c, rfl, rfl⟩ | ⟨c, addr, n, rfl, -, -, rfl⟩ | ⟨c, addr, v, rfl, -, -, rfl⟩ | ⟨w, i, rfl, hd, he⟩
  · exact .inl ⟨.inr ha, State.controllerStep_moves hc⟩
  · exact .inr (.inr ⟨rfl, fun _ hr => hr⟩)
  · obtain ⟨rest, hrest⟩ := List.head?_eq_some_iff.mp ha
    rw [hrest] at he
    exact .inr (.inl ⟨c, w, buf, cap, rest, i, hrest, hd, he⟩)
  · refine .inr (.inr ⟨by rw [State.refuse_eq]; rfl, fun r hr => ?_⟩)
    simp [hr]
  · exact .inr (.inr ⟨rfl, fun _ hr => hr⟩)
  · exact .inr (.inr ⟨rfl, fun _ hr => hr⟩)
  · exact .inr (.inr ⟨rfl, fun _ hr => hr⟩)
  · rw [exec_event (decodeEvent_isCommand hd)] at he
    cases he
    exact .inr (.inr ⟨rfl, fun _ hr => hr⟩)

end Sys2Proof.Machine
end
section
/-! The turns of the schedule: the settled statements about what a step runs. -/

namespace Sys2Proof.Machine

/-- Settles O9: a free caller's issue turn latches the port and runs the decoded command. -/
theorem stepRunsIssuedCommand : Obligations.StepRunsIssuedCommand := by
  intro s c p w buf cap rest i ha hp ho hd
  have hmove : ({ s with agenda := rest }).canMove c = true := State.canMove_true.mpr ⟨p, hp, ho⟩
  rw [step_agenda_cons ha]
  simp only [State.takeTurn, hmove, if_true, State.runCommand, hd]
  rfl

/-- Settles O12: a waiting caller cannot move, so each of its three turns passes. -/
theorem waitingCallerDoesNothing : Obligations.WaitingCallerDoesNothing := by
  intro s c p a rest ha hp ho hturn
  have hstay : ({ s with agenda := rest }).canMove c = false := by
    simpa [ho] using State.canMove_eq (s := { s with agenda := rest }) hp
  rw [step_agenda_cons ha]
  rcases hturn with ⟨w, buf, cap, rfl⟩ | ⟨addr, n, rfl⟩ | ⟨addr, v, rfl⟩
  all_goals simp [State.takeTurn, hstay]

/-- Settles O13: the two ways the schedule gives the controller a step. -/
theorem controllerMovesOnItsTurn : Obligations.ControllerMovesOnItsTurn :=
  fun _ => ⟨step_agenda_nil, fun _ ha => step_agenda_cons ha⟩

/-- A response that was delivered ends the wait, and nothing else does. -/
theorem CallerPort.receive_eq (p : CallerPort) :
    p.receive = { p with outstanding := p.outstanding && p.response == none } := by
  obtain ⟨outstanding, response⟩ := p
  cases response <;> simp [CallerPort.receive]

/-- Settles O55: the receive turn changes the one port, as `CallerPort.receive_eq` says. -/
theorem responseReleasesCaller : Obligations.ResponseReleasesCaller := by
  intro s c p rest ha hp
  refine ⟨({ s with agenda := rest }).onCaller c CallerPort.receive, by rw [step_agenda_cons ha]; rfl, rfl, ?_,
    fun d hd => ?_⟩
  · simp [hp, CallerPort.receive_eq]
  · simp [Ne.symm hd]

end Sys2Proof.Machine
end
section
/-! The configuration, the mark and the registry: what any step can do to them. -/

namespace Sys2Proof.Machine

/-- Settles O30: neither a move nor an instruction writes the configuration, and no other turn does. -/
theorem configurationNeverChanges : Obligations.ConfigurationNeverChanges := by
  intro s t h
  rcases step_parts h with ⟨-, hm⟩ | ⟨c, w, buf, cap, rest, i, -, -, he⟩ | ⟨hq, -⟩
  · exact by rw [hm.frame]
  · exact (exec_keeps he).1
  · exact by rw [hq]

/-- Settles O24: the controller never writes the mark, and a refusal keeps an earlier reason. -/
theorem refusedMarkIsSticky : Obligations.RefusedMarkIsSticky := by
  intro s t r h hr
  rcases step_parts h with ⟨-, hm⟩ | ⟨c, w, buf, cap, rest, i, -, -, he⟩ | ⟨-, hsticky⟩
  · exact by rw [hm.frame]; exact hr
  · exact (exec_keeps he).2.2 r hr
  · exact hsticky r hr

/-- The device whose INIT the next turn issues is `d`. -/
def State.InitIsNext (s : State) (d : DevId) : Prop :=
  ∃ c w buf cap rest, s.agenda = .issue c w buf cap :: rest ∧ decodeCommand w = .ok (.init d)

/-- A step leaves `CURDEV` and the BusHandles alone, or it is an accepted INIT (44_registry_diag.md R192). -/
theorem step_registry {s t : State} (h : step s = .next t) :
    (t.curdev = s.curdev ∧ t.buses = s.buses) ∨
    ∃ b, s.InitIsNext t.curdev ∧ s.phase = .idle ∧ s.cfg.devmap[t.curdev.toNat]? = some b ∧
      t.buses = s.buses.set b.toNat ⟨true, s.timingFor b⟩ := by
  rcases step_parts h with ⟨-, hm⟩ | ⟨c, w, buf, cap, rest, i, ha, hd, he⟩ | ⟨hq, -⟩
  · exact .inl ⟨by rw [hm.frame], by rw [hm.frame]⟩
  · rcases exec_registry he with hsame | ⟨b, hi, hp, hb, hbuses⟩
    · exact .inl hsame
    · exact .inr ⟨b, ⟨c, w, buf, cap, rest, ha, hi ▸ hd⟩, hp, hb, hbuses⟩
  · exact .inl ⟨by rw [hq], by rw [hq]⟩

/-- Settles O27: `step_registry` leaves only the accepted INIT, whose device is in `DEVMAP`. -/
theorem curdevChangesOnlyByInit : Obligations.CurdevChangesOnlyByInit := by
  intro s t h hne
  rcases step_registry h with ⟨hsame, -⟩ | ⟨b, hinit, hp, hb, -⟩
  · exact absurd hsame hne
  · exact ⟨hp, (List.getElem?_eq_some_iff.mp hb).1, hinit⟩

/-- `BUSINIT[b]` read off the BusHandle. -/
theorem State.busInit_iff {s : State} {b : BusId} :
    s.busInit b = true ↔ ∃ h, s.buses[b.toNat]? = some h ∧ h.inited = true := by
  unfold State.busInit
  split <;> rename_i h <;> simp [h]

/-- Initialising a bus clears no `BUSINIT`. -/
theorem State.busInit_of_set {s t : State} {n k : Nat} {b : BusId} (hset : t.buses = s.buses.set n ⟨true, k⟩)
    (hb : s.busInit b = true) : t.busInit b = true := by
  obtain ⟨g, hg, hi⟩ := State.busInit_iff.mp hb
  obtain ⟨hlt, -⟩ := List.getElem?_eq_some_iff.mp hg
  rw [State.busInit_iff, hset, List.getElem?_set]
  split
  · next hn => exact ⟨_, if_pos (hn ▸ hlt), rfl⟩
  · exact ⟨g, hg, hi⟩

/-- Settles O28: of the BusHandles an INIT sets the one of its own bus, to initialised. -/
theorem businitIsNeverCleared : Obligations.BusinitIsNeverCleared := by
  intro s t b h
  rcases step_registry h with ⟨-, hsame⟩ | ⟨b', hinit, -, hb', hset⟩
  · have : t.busInit b = s.busInit b := by simp only [State.busInit, hsame]
    rw [this]
    exact ⟨id, fun hf ht => absurd (hf.symm.trans ht) (by decide)⟩
  · refine ⟨State.busInit_of_set hset, fun hf ht => ?_⟩
    by_cases hbb : b' = b
    · exact ⟨hbb ▸ hb', hinit⟩
    · have hn : b'.toNat ≠ b.toNat := fun e => hbb (BitVec.eq_of_toNat_eq e)
      have : t.busInit b = s.busInit b := by simp only [State.busInit, hset, List.getElem?_set_ne hn]
      exact absurd (hf.symm.trans (this ▸ ht)) (by decide)

/-- The profile `OVERCLOCK[b]` selects, read off the table. -/
theorem State.timingFor_eq (s : State) (b : BusId) :
    s.timingFor b = if s.cfg.overclock[b.toNat]? = some 1 then s.cfg.timingOverclock else s.cfg.timingStandard := by
  unfold State.timingFor State.overclock
  cases s.cfg.overclock[b.toNat]? <;> simp

/-- Settles O29: the changed BusHandle is the one the accepted INIT set. -/
theorem profileChangesOnlyByInit : Obligations.ProfileChangesOnlyByInit := by
  intro s t n h hne
  rcases step_registry h with ⟨-, hsame⟩ | ⟨b, hinit, hp, hb, hset⟩
  · exact absurd (by rw [hsame]) hne
  · rw [hset, List.getElem?_set] at hne ⊢
    by_cases hn : b.toNat = n
    · subst hn
      by_cases hlt : b.toNat < s.buses.length
      · exact ⟨hp, ⟨b, hb, rfl⟩, by simp [hlt, State.timingFor_eq], hinit⟩
      · simp [hlt] at hne
    · simp [hn] at hne

end Sys2Proof.Machine
end
section
/-! The sequencer: timeouts, events and the phase table, move by move. -/

namespace Sys2Proof.Machine

/-- Of the moves only the last failed sample counts an error. -/
theorem State.Moves.errcnt_changed {s t : State} (h : s.Moves t) (hne : t.errcnt ≠ s.errcnt) :
    ∃ w, s.stage = .poll ∧ waitOf s.phase = some w ∧ t = ({ s.sampleFlag w.flag with ctr := s.ctr - 1 }).timeout := by
  cases h with
  | @expire w hs hw hc => exact ⟨w, hs, hw, rfl⟩
  | rest | arm | finish | burst => exact absurd rfl hne
  | receive => exact absurd (by simp [State.nextReceive, State.storedByte]) hne
  | satisfied | again => exact absurd (by simp) hne

/-- Settles O47: commands and other turns leave `ERRCNT`, and of the controller's moves only `Timeout()` does not. -/
theorem errcntChangesOnlyByTimeout : Obligations.ErrcntChangesOnlyByTimeout := by
  intro s t h hne
  rcases step_parts h with ⟨-, hm⟩ | ⟨c, w, buf, cap, rest, i, -, -, he⟩ | ⟨hq, -⟩
  · obtain ⟨w, hs, hw, rfl⟩ := hm.errcnt_changed hne
    refine ⟨by simp, ne_idle_of_waitOf hw, hs, rfl, ?_, w.flag, s.drawBit, ?_⟩
    · rw [State.sampleFlag_frame]; rfl
    · rw [State.sampleFlag_frame]; rfl
  · exact absurd (exec_keeps he).2.1 hne
  · exact absurd (by rw [hq]) hne

/-! ### Events -/

/-- `w` is the word of an event instruction, on bus `b`, and well-formed when the address byte `sa` is even. -/
def EventWordOn (b : BusId) (sa : Byte) (w : Word) : Prop :=
  ∃ i : Instr, encode i = w ∧ i.isCommand = false ∧ w.toNat / 2 ^ 24 % 16 = b.toNat ∧
    (sa.getLsbD 0 = false → i.wf = true)

/-- Bits [27:24] of a word given by its fields (30_encoding.md R78). -/
theorem busField_append (k b : BitVec 4) (rest : BitVec 24) :
    (k ++ (b ++ rest) : BitVec 32).toNat / 2 ^ 24 % 16 = b.toNat := by
  have hrest : (b ++ rest).toNat = b.toNat * 2 ^ 24 + rest.toNat := by
    rw [BitVec.toNat_append, ← Nat.shiftLeft_add_eq_or_of_lt rest.isLt, Nat.shiftLeft_eq]
  rw [BitVec.toNat_append, ← Nat.shiftLeft_add_eq_or_of_lt (b ++ rest).isLt, Nat.shiftLeft_eq, hrest]
  omega

theorem eventWordOn_begin (b : BusId) {e : EndMode} {st : Bit} {d : Dir} {n : Byte} (sa : Byte)
    (hu : beginUse e st d n = true) : EventWordOn b sa (encode (.begin b e st d n sa)) :=
  ⟨_, rfl, rfl, busField_append _ _ _, fun heven => by simp only [Instr.wf, evenSaddr, hu, heven]; rfl⟩

theorem eventWordOn_tx (b : BusId) (sa v : Byte) : EventWordOn b sa (encode (.tx b v)) :=
  ⟨_, rfl, rfl, busField_append _ _ _, fun _ => rfl⟩

theorem eventWordOn_rx (b : BusId) (sa v : Byte) : EventWordOn b sa (encode (.rx b v)) :=
  ⟨_, rfl, rfl, busField_append _ _ _, fun _ => rfl⟩

theorem eventWordOn_clrstop (b : BusId) (sa : Byte) : EventWordOn b sa (encode (.clrstop b)) :=
  ⟨_, rfl, rfl, busField_append _ _ _, fun _ => rfl⟩

theorem eventWordOn_sample (b : BusId) (sa : Byte) (f : Flag) (v : Bit) : EventWordOn b sa (encode (.sample b f v)) :=
  ⟨_, rfl, rfl, busField_append _ _ _, fun _ => rfl⟩

/-- Every entry event is one on the operation's bus: a BEGIN in one of the four uses, a TX or a CLRSTOP. -/
theorem State.eventWordOn_of_mem_entryEvents {s : State} {i : Instr} (h : i ∈ s.entryEvents) :
    EventWordOn s.tbus s.tsaddr (encode i) := by
  unfold State.entryEvents at h
  split at h <;> simp only [List.mem_singleton, List.not_mem_nil] at h <;> subst h
  case h_1 | h_3 | h_6 | h_8 => exact eventWordOn_begin _ _ (by rfl)
  case h_2 | h_4 | h_7 => exact eventWordOn_tx _ _ _
  case h_5 | h_9 => exact eventWordOn_clrstop _ _

/-- The history items a move may append: at most two, whose events are on the operation's bus. -/
def State.Appends (s t : State) : Prop :=
  ∃ new : List Record, t.hist = s.hist ++ new ∧ new.length ≤ 2 ∧
    ∀ w, .event w ∈ new → EventWordOn s.tbus s.tsaddr w

theorem State.appends_entered {s t : State} (h : t.hist = s.entered.hist) : s.Appends t := by
  refine ⟨_, h, ?_, fun w hw => ?_⟩
  · rw [List.length_map]
    exact Nat.le_succ_of_le s.entryEvents_length_le
  · obtain ⟨i, hi, he⟩ := List.mem_map.mp hw
    exact Record.event.inj he ▸ State.eventWordOn_of_mem_entryEvents hi

theorem State.appends_sample {s t : State} {f : Flag}
    (h : t.hist = s.hist ++ [.event (encode (.sample s.tbus f s.drawBit))]) : s.Appends t := by
  refine ⟨_, h, by simp, fun w hw => ?_⟩
  obtain rfl : w = encode (.sample s.tbus f s.drawBit) := by simpa using hw
  exact eventWordOn_sample _ _ _ _

/-- R_RXBYTE appends one RX and one MEMW record. -/
theorem State.appends_storedByte (s : State) : s.Appends s.storedByte.nextReceive := by
  refine ⟨_, rfl, by simp, fun w hw => ?_⟩
  obtain rfl : w = encode (.rx s.tbus s.drawByte) := by simpa using hw
  exact eventWordOn_rx _ _ _

theorem State.Moves.appends {s t : State} (h : s.Moves t) : s.Appends t := by
  cases h with
  | rest => exact ⟨[], by simp, by simp, by simp⟩
  | arm | finish | burst => exact State.appends_entered rfl
  | receive => exact s.appends_storedByte
  | @satisfied w | @again w | @expire w => exact State.appends_sample (f := w.flag) (by simp)

/-- Settles O48, move by move. -/
theorem controllerEventsOnOperationBus : Obligations.ControllerEventsOnOperationBus :=
  fun _ _ h => (State.controllerStep_moves h).appends

/-! ### The phase table -/

/-- The phases that wait, each with its successor (30_encoding.md R80). -/
theorem waitOf_mem {p : Phase} {w : Wait} (h : waitOf p = some w) :
    p ∈ ([.wBusfree, .wAddr, .wReg, .wDatacfg, .wData, .rBusfree, .rAddr, .rReg, .rRecv, .rStop] : List Phase) ∧
    (p, w.successor) ∈ ([(.wBusfree, .wAddr), (.wAddr, .wReg), (.wReg, .wDatacfg), (.wDatacfg, .wData),
      (.wData, .wClrstop), (.rBusfree, .rAddr), (.rAddr, .rReg), (.rReg, .rReadcfg), (.rRecv, .rRxbyte),
      (.rStop, .rClrstop)] : List (Phase × Phase)) := by
  cases p <;> simp only [waitOf, Option.some.injEq, reduceCtorEq] at h <;> subst h <;> decide

/-- The receive loop goes on to R_RECV or is left to R_STOP. -/
theorem State.nextReceive_phase (s : State) : s.nextReceive.phase = .rRecv ∨ s.nextReceive.phase = .rStop := by
  simp only [State.nextReceive]
  split <;> simp

/-- A move that changes `PHASE` is of one of the four kinds (40_timer.md R105, R106, R111). -/
theorem State.Moves.phase_changed {s t : State} (h : s.Moves t) (hne : t.phase ≠ s.phase) :
    (t.phase = .idle ∧ s.stage = .entry ∧ s.phase ∈ ([.wClrstop, .rClrstop] : List Phase)) ∨
    (t.phase = .idle ∧ s.stage = .poll ∧ s.phase ∈ ([.wBusfree, .wAddr, .wReg, .wDatacfg, .wData, .rBusfree, .rAddr,
      .rReg, .rRecv, .rStop] : List Phase)) ∨
    (s.stage = .entry ∧ (s.phase, t.phase) ∈ ([(.rReadcfg, .rRecv), (.rReadcfg, .rStop), (.rRxbyte, .rRecv),
      (.rRxbyte, .rStop)] : List (Phase × Phase))) ∨
    (s.stage = .poll ∧ (s.phase, t.phase) ∈ ([(.wBusfree, .wAddr), (.wAddr, .wReg), (.wReg, .wDatacfg),
      (.wDatacfg, .wData), (.wData, .wClrstop), (.rBusfree, .rAddr), (.rAddr, .rReg), (.rReg, .rReadcfg),
      (.rRecv, .rRxbyte), (.rStop, .rClrstop)] : List (Phase × Phase))) := by
  cases h with
  | rest | arm => exact absurd rfl hne
  | again => exact absurd (by simp) hne
  | finish hs hp => exact .inl ⟨rfl, hs, by simpa using hp⟩
  | expire hs hw => exact .inr (.inl ⟨rfl, hs, (waitOf_mem hw).1⟩)
  | burst hs hp =>
    refine .inr (.inr (.inl ⟨hs, ?_⟩))
    rcases s.entered.nextReceive_phase with hq | hq <;> simp [hp, hq]
  | receive hs hp =>
    refine .inr (.inr (.inl ⟨hs, ?_⟩))
    rcases s.storedByte.nextReceive_phase with hq | hq <;> simp [hp, hq]
  | satisfied hs hw => exact .inr (.inr (.inr ⟨hs, (waitOf_mem hw).2⟩))

/-- Settles O50: no step writes the loaded registers while an operation is in flight, and only a move changes `PHASE`. -/
theorem operationRegistersHold : Obligations.OperationRegistersHold := by
  intro s t h hp
  rcases step_parts h with ⟨ha, hm⟩ | ⟨c, w, buf, cap, rest, i, -, -, he⟩ | ⟨hq, -⟩
  · refine ⟨?_, ?_, ?_, ?_, ?_, ?_, ?_, ?_, ?_, ?_, fun hne => ⟨ha, hm.phase_changed hne⟩⟩
    all_goals rw [hm.frame]
  · have hframe := exec_busy_frame (by exact hp) he
    rw [hframe]
    exact ⟨rfl, rfl, rfl, rfl, rfl, rfl, rfl, rfl, rfl, rfl, absurd rfl⟩
  · rw [hq]
    exact ⟨rfl, rfl, rfl, rfl, rfl, rfl, rfl, rfl, rfl, rfl, absurd rfl⟩

end Sys2Proof.Machine
end
section
/-! The invariant: what each update of the state keeps of it. -/

namespace Sys2Proof.Machine

/-! ### Its predicates, read off the state -/

/-- A caller waits when its port says so. -/
theorem State.awaiting_iff {s : State} {c : Nat} :
    s.awaiting c = true ↔ ∃ p, s.callers[c]? = some p ∧ p.outstanding = true ∧ p.response = none := by
  unfold State.awaiting
  split <;> rename_i h <;> simp [h]

theorem State.countdownOk_iff {s : State} :
    s.countdownOk = true ↔ ∃ w, waitOf s.phase = some w ∧ 1 ≤ s.ctr ∧ s.ctr ≤ Params.budget s.cfg w.budget := by
  unfold State.countdownOk
  split <;> rename_i h <;> simp [h]

/-- Both profiles of a well-formed configuration have `PROFILE_WIDTH` bits. -/
theorem State.timingFor_lt {s : State} (h : s.cfg.wf = true) (b : BusId) : s.timingFor b < 2 ^ s.cfg.profileWidth := by
  simp only [Params.wf, Bool.and_eq_true, decide_eq_true_eq] at h
  unfold State.timingFor
  split <;> omega

theorem Params.shortBudget_pos {p : Params} (h : p.wf = true) : 1 ≤ p.shortBudget := by
  simp only [Params.wf, Bool.and_eq_true, decide_eq_true_eq] at h
  omega

/-- A property of every port survives a change of one port that keeps it. -/
theorem forall_mem_modify {P : CallerPort → Prop} {l : List CallerPort} {c : Nat} {f : CallerPort → CallerPort}
    (hl : ∀ p ∈ l, P p) (hf : ∀ p, l[c]? = some p → P (f p)) : ∀ p ∈ l.modify c f, P p := by
  intro p hp
  obtain ⟨n, hn⟩ := List.mem_iff_getElem?.mp hp
  rw [List.getElem?_modify] at hn
  obtain ⟨q, hq, rfl⟩ := Option.map_eq_some_iff.mp hn
  split
  · next hc => exact hf q (hc ▸ hq)
  · exact hl q (List.mem_of_getElem? hq)

namespace State.Inv

variable {s : State}

/-! ### Updates of fields it does not read, or reads for their range only -/

theorem withAgenda (h : s.Inv) (l : List Turn) : ({ s with agenda := l }).Inv := { h with }

theorem withHist (h : s.Inv) (l : List Record) : ({ s with hist := l }).Inv := { h with }

theorem refuse (h : s.Inv) (e : RefuseReason) : (s.refuse e).Inv := by
  rw [State.refuse_eq]
  exact { h with }

theorem sampleFlag (h : s.Inv) (f : Flag) : (s.sampleFlag f).Inv := by
  rw [State.sampleFlag_frame]
  exact { h with }

theorem latchCommand (h : s.Inv) (c : Nat) (w : Word) (buf cap : Nat) : (s.latchCommand c w buf cap).Inv :=
  { h with cmdBufFits := Nat.mod_lt _ (Nat.two_pow_pos _) }

/-- A write inside the address space keeps the canonical form and the addresses in range. -/
theorem memWrite (h : s.Inv) {a : Nat} (ha : a < s.addrSpace) (v : Byte) : ({ s with mem := s.mem.write a v }).Inv :=
  { h with
    memCanonical := Memory.write_wf a v h.memCanonical
    memInSpace := fun c hc => (Memory.mem_write hc).elim (h.memInSpace c) fun e => e ▸ ha }

/-! ### Updates of the callers' ports -/

/-- A change of one port that keeps its width and whether its caller waits. -/
theorem onCaller (h : s.Inv) {c : Nat} {f : CallerPort → CallerPort}
    (hvalue : ∀ p, s.callers[c]? = some p → (f p).rspValue < 2 ^ s.cfg.errWidth)
    (hwaits : ∀ p, s.callers[c]? = some p →
      ((f p).outstanding && (f p).response == none) = (p.outstanding && p.response == none)) :
    (s.onCaller c f).Inv := by
  have hawait : ∀ d, (s.onCaller c f).awaiting d = s.awaiting d := fun d => by
    by_cases hd : d = c
    · subst hd
      simp only [State.awaiting, State.onCaller_callers, List.getElem?_modify]
      cases hp : s.callers[d]? with
      | none => rfl
      | some p => simpa using hwaits p hp
    · exact State.awaiting_modify_other rfl hd
  exact { h with
    callersSized := by simpa using h.callersSized
    valuesFit := forall_mem_modify h.valuesFit hvalue
    flightCaller := fun hp => (hawait _).trans (h.flightCaller hp)
    waiters := fun d hd ha => h.waiters d (by simpa using hd) ((hawait d).symm.trans ha) }

/-- A free caller is answered (44_registry_diag.md R192, R195): it waited for nothing before and does not after. -/
theorem answered (h : s.Inv) {c : Nat} (hc : s.canMove c = true) {f : CallerPort → CallerPort}
    (hvalue : ∀ p, p.rspValue < 2 ^ s.cfg.errWidth → (f p).rspValue < 2 ^ s.cfg.errWidth)
    (hfree : ∀ p, (f p).outstanding = p.outstanding) : (s.onCaller c f).Inv := by
  obtain ⟨q, hq, hout⟩ := State.canMove_true.mp hc
  refine h.onCaller (fun p hp => hvalue p (h.valuesFit p (List.mem_of_getElem? hp))) fun p hp => ?_
  obtain rfl : q = p := Option.some.inj (hq.symm.trans hp)
  simp [hfree, hout]

/-- `Complete(ok)`: no operation is left, and the one caller that waited has its response (60_exceptions.md R212). -/
theorem complete (h : s.Inv) (v : Bit) : (s.complete v).Inv :=
  { h with
    callersSized := by simpa using h.callersSized
    valuesFit := forall_mem_modify h.valuesFit fun p hp => h.valuesFit p (List.mem_of_getElem? hp)
    flightBus := absurd rfl
    flightAddr := absurd rfl
    flightCaller := absurd rfl
    flightPoll := absurd rfl
    readCount := nofun
    readBuffer := nofun
    readLoop := nofun
    readEnd := nofun
    readStart := nofun
    waiters := fun c hc ha => by
      by_cases hcc : c = s.tcaller
      · rw [hcc, State.awaiting_gotOk (s := s) (v := v) rfl] at ha
        cases ha
      · rw [State.awaiting_modify_other (s := s) rfl hcc] at ha
        exact absurd (h.waiters c (by simpa using hc) ha).2 hcc }

/-- `Timeout()`: the count stays below `2 ^ ERR_WIDTH` (40_timer.md R105). -/
theorem timeout (h : s.Inv) : s.timeout.Inv :=
  State.Inv.complete (s := { s with errcnt := (s.errcnt + 1) % 2 ^ s.cfg.errWidth })
    { h with errcntFits := Nat.mod_lt _ (Nat.two_pow_pos _) } 0

/-- In IDLE the countdown is not in use. -/
theorem withCtr (h : s.Inv) (hidle : s.phase = .idle) (n : Nat) : ({ s with ctr := n }).Inv :=
  { h with flightPoll := fun hp => absurd hidle hp }

/-! ### Commands -/

/-- The BusHandle and `CURDEV` as an accepted INIT writes them (44_registry_diag.md R192). -/
theorem registered (h : s.Inv) {d : DevId} {b : BusId} (hd : s.cfg.devmap[d.toNat]? = some b) :
    ({ s with curdev := d, buses := s.buses.set b.toNat ⟨true, s.timingFor b⟩ }).Inv :=
  { h with
    curdevKnown := (List.getElem?_eq_some_iff.mp hd).1
    busesSized := by simpa using h.busesSized
    profilesFit := fun g hg => by
      rcases List.mem_or_eq_of_mem_set hg with hg | rfl
      · exact h.profilesFit g hg
      · exact State.timingFor_lt h.cfgOk b
    flightBus := fun hp => State.busInit_of_set rfl (h.flightBus hp) }

theorem initialise (h : s.Inv) {d : DevId} {b : BusId} (hd : s.cfg.devmap[d.toNat]? = some b)
    (hc : s.canMove s.cmdCaller = true) : (s.initialise d b).Inv :=
  ((h.registered hd).withHist _).answered hc (fun _ hp => hp) fun _ => rfl

/-- An accepted transaction: its caller, free before, is the one that waits (42_write.md R140, 43_read.md R160). The read's
registers are as given for a read, and any others for a write. -/
theorem accept (h : s.Inv) (hidle : s.phase = .idle) {b : BusId} (hb : s.busInit b = true)
    (hc : s.canMove s.cmdCaller = true) (a : Addr7) (reg data len off rem : Byte) (buf cap : Nat) {first : Phase}
    (hfirst : first = .wBusfree ∨ first = .rBusfree)
    (hread : first.isRead = true → off = 0 ∧ rem = len ∧ len.toNat ≤ cap ∧ buf + cap ≤ s.addrSpace) :
    ({ s.loadTransaction b a reg first with
      tdata := data, tlen := len, toff := off, trem := rem, tbuf := buf, tcap := cap }).Inv := by
  obtain ⟨p, hp, hout⟩ := State.canMove_true.mp hc
  have hwaits : (s.onCaller s.cmdCaller CallerPort.await).awaiting s.cmdCaller = true :=
    State.awaiting_iff.mpr ⟨p.await, by simp [hp], rfl, rfl⟩
  have hothers : ∀ c, c < s.callers.length → (s.onCaller s.cmdCaller CallerPort.await).awaiting c = true →
      c = s.cmdCaller := fun c hlt ha => by
    by_contra hne
    rw [State.awaiting_modify_other (s := s) rfl hne] at ha
    exact (h.waiters c hlt ha).1 hidle
  have hflight : first ≠ .idle := by rcases hfirst with rfl | rfl <;> decide
  exact { h with
    callersSized := by simpa using h.callersSized
    valuesFit := forall_mem_modify h.valuesFit fun q hq => h.valuesFit q (List.mem_of_getElem? hq)
    flightBus := fun _ => hb
    flightAddr := fun _ => by simp [saddrOf]
    flightCaller := fun _ => hwaits
    flightPoll := nofun
    readCount := fun hr => by
      obtain ⟨rfl, rfl, -⟩ := hread hr
      simp
    readBuffer := fun hr => by
      obtain ⟨-, -, hfit⟩ := hread hr
      exact hfit
    readLoop := fun hp => by rcases hfirst with rfl | rfl <;> simp at hp
    readEnd := fun hp => by rcases hfirst with rfl | rfl <;> simp at hp
    readStart := fun hp => by
      rcases hfirst with rfl | rfl
      · simp at hp
      · exact (hread rfl).1
    waiters := fun c hlt ha => ⟨hflight, hothers c (by simpa using hlt) ha⟩ }

/-- Every instruction keeps the invariant; a command is issued by a free caller. -/
theorem ofExec {i : Instr} {t : State} (h : s.Inv) (hc : i.isCommand = true → s.canMove s.cmdCaller = true)
    (he : exec i s = .next t) : t.Inv := by
  rcases exec_cases he with ⟨e, -, rfl⟩ | ⟨d, b, rfl, hd, rfl⟩ | ⟨d, a, r, v, b, hi, hd, rfl⟩ |
    ⟨d, a, r, l, b, hi, hd, rfl⟩ | ⟨rfl, rfl⟩ | ⟨-, rfl⟩
  · exact h.refuse e
  · exact h.initialise (State.checkDevice_ok.mp hd).2 (hc rfl)
  · obtain ⟨hidle, -, hb⟩ := State.checkBus_ok.mp hd
    have hcmd : i.isCommand = true := by rcases hi with rfl | ⟨rfl, -⟩ <;> rfl
    exact h.accept hidle hb (hc hcmd) a r v s.tlen s.toff s.trem s.tbuf s.tcap (.inl rfl) nofun
  · obtain ⟨hidle, -, hb, -, hbuf, hlen⟩ := State.checkRead_ok.mp hd
    have hcmd : i.isCommand = true := by rcases hi with rfl | ⟨rfl, -⟩ <;> rfl
    exact h.accept hidle hb (hc hcmd) a r s.tdata l 0 l s.cmdBuf s.cmdCap (.inr rfl)
      fun _ => ⟨rfl, rfl, hlen, hbuf⟩
  · exact h.answered (hc rfl) (fun _ _ => h.errcntFits) fun _ => rfl
  · exact h.withHist _

/-! ### The controller's moves -/

/-- An operation in flight enters a phase of the same direction, with the read's counters as that phase has them. -/
theorem enter (h : s.Inv) (hflight : s.phase ≠ .idle) {p : Phase} {off rem : Byte} (hp : p ≠ .idle)
    (hdir : p.isRead = s.phase.isRead) (hcount : p.isRead = true → off.toNat + rem.toNat = s.tlen.toNat)
    (hloop : p = .rRecv ∨ p = .rRxbyte → rem ≠ 0) (hend : p = .rStop ∨ p = .rClrstop → rem = 0)
    (hstart : p = .rBusfree ∨ p = .rAddr ∨ p = .rReg ∨ p = .rReadcfg → off = 0) :
    ({ s with phase := p, stage := .entry, toff := off, trem := rem }).Inv :=
  { h with
    flightBus := fun _ => h.flightBus hflight
    flightAddr := fun _ => h.flightAddr hflight
    flightCaller := fun _ => h.flightCaller hflight
    flightPoll := nofun
    readCount := hcount
    readBuffer := fun hr => h.readBuffer (hdir ▸ hr)
    readLoop := hloop
    readEnd := hend
    readStart := hstart
    waiters := fun c hc ha => ⟨hp, (h.waiters c hc ha).2⟩ }

/-- The receive loop goes on with a byte left, and is left with none (43_read.md R167). -/
theorem nextReceive (h : s.Inv) (hread : s.phase.isRead = true) {off rem : Byte}
    (hcount : off.toNat + rem.toNat = s.tlen.toNat) : ({ s with toff := off, trem := rem }).nextReceive.Inv := by
  have hflight : s.phase ≠ .idle := fun hp => by rw [hp] at hread; cases hread
  unfold State.nextReceive
  by_cases hrem : rem = 0
  · rw [if_pos hrem]
    exact h.enter hflight nofun hread.symm (fun _ => hcount) nofun (fun _ => hrem) nofun
  · rw [if_neg hrem]
    exact h.enter hflight nofun hread.symm (fun _ => hcount) (fun _ => hrem) nofun nofun

/-- In a phase that receives, the next byte's address is inside the buffer (20_memory.md R52). -/
theorem receive_lt (h : s.Inv) (hp : s.phase = .rRxbyte) : s.tbuf + s.toff.toNat < s.addrSpace := by
  have hread : s.phase.isRead = true := by rw [hp]; rfl
  have hrem : s.trem.toNat ≠ 0 := fun h0 => h.readLoop (.inr hp) (BitVec.eq_of_toNat_eq h0)
  have := h.readCount hread
  have := h.readBuffer hread
  omega

/-- R_RXBYTE stores one byte and moves the counters by one. -/
theorem storedByte (h : s.Inv) (hp : s.phase = .rRxbyte) : s.storedByte.nextReceive.Inv := by
  have hread : s.phase.isRead = true := by rw [hp]; rfl
  have hrem : s.trem.toNat ≠ 0 := fun h0 => h.readLoop (.inr hp) (BitVec.eq_of_toNat_eq h0)
  have hcount : (s.toff + 1).toNat + (s.trem - 1).toNat = s.tlen.toNat := by
    have := h.readCount hread
    have := s.tlen.isLt
    bv_omega
  have hmem := (h.memWrite (h.receive_lt hp) s.drawByte).withHist
    (s.hist ++ [.event (encode (.rx s.tbus s.drawByte)), .memw (s.tbuf + s.toff.toNat) s.drawByte])
  unfold State.storedByte
  rw [State.tookByte_frame]
  exact nextReceive (s := { s with
    mem := _, hist := _, rxScript := s.tookByte.rxScript, draws := s.tookByte.draws }) { hmem with } hread hcount

/-- The countdown is armed with the budget of the wait, which is at least 1 (40_timer.md R107, R109). -/
theorem arm (h : s.Inv) {w : Wait} (hw : waitOf s.phase = some w) :
    ({ s with ctr := Params.budget s.cfg w.budget, stage := .poll }).Inv :=
  { h with
    flightPoll := fun _ _ => State.countdownOk_iff.mpr
      ⟨w, hw, budget_pos (Params.shortBudget_pos h.cfgOk) w.budget, le_rfl⟩ }

/-- A failed sample that is not the last leaves the countdown in range (40_timer.md R103). -/
theorem countDown (h : s.Inv) (hc : s.ctr - 1 ≠ 0) : ({ s with ctr := s.ctr - 1 }).Inv :=
  { h with
    flightPoll := fun hp hs => by
      obtain ⟨w, hw, -, hle⟩ := State.countdownOk_iff.mp (h.flightPoll hp hs)
      exact State.countdownOk_iff.mpr ⟨w, hw, Nat.one_le_iff_ne_zero.mpr hc, by simp only; omega⟩ }

/-- A satisfied wait is followed by its successor, which is of the same part of the operation. -/
theorem succeed (h : s.Inv) {w : Wait} (hw : waitOf s.phase = some w) :
    ({ s with phase := w.successor, stage := .entry }).Inv := by
  obtain ⟨hne, hdir, hloop, hend, hstart⟩ := waitOf_successor hw
  refine h.enter (ne_idle_of_waitOf hw) hne hdir (fun hr => h.readCount (hdir ▸ hr))
    (fun hp => h.readLoop (.inl (hloop hp))) (fun hp => h.readEnd (.inl (hend hp))) fun hp => h.readStart ?_
  rcases hstart hp with hq | hq | hq <;> simp [hq]

/-- Every move of the controller keeps the invariant. -/
theorem ofMoves {t : State} (h : s.Inv) (hm : s.Moves t) : t.Inv := by
  have hentered : s.entered.Inv := h.withHist _
  cases hm with
  | rest => exact h
  | arm hs hw => exact hentered.arm hw
  | finish hs hp => exact hentered.complete 1
  | burst hs hp =>
    have hread : s.phase.isRead = true := by rw [hp]; rfl
    exact hentered.nextReceive hread (h.readCount hread)
  | receive hs hp => exact h.storedByte hp
  | @satisfied w hs hw hv => exact (h.sampleFlag w.flag).succeed (by simpa using hw)
  | @again w hs hw hc =>
    have hctr : (s.sampleFlag w.flag).ctr = s.ctr := by simp
    exact hctr ▸ (h.sampleFlag w.flag).countDown (hctr.symm ▸ hc)
  | @expire w hs hw hc => exact (h.sampleFlag w.flag).timeout.withCtr rfl (s.ctr - 1)

/-- From a state that meets the invariant the controller has a next state: POLL stands at a wait only, and a received byte
has an address (30_encoding.md R81, 43_read.md R167). -/
theorem controllerStep_next (h : s.Inv) : ∃ t, s.controllerStep = .next t := by
  unfold State.controllerStep
  by_cases hp : s.phase = .idle
  · exact ⟨s, if_pos hp⟩
  rw [if_neg hp]
  cases hs : s.stage with
  | entry =>
    have hentry : ∃ u, s.entryAction = .next u := by
      by_cases hq : s.phase = .rRxbyte
      · exact ⟨_, by simpa [State.entryAction, hq] using State.receiveByte_inside (h.receive_lt hq)⟩
      · exact ⟨_, State.entryAction_eq hq⟩
    obtain ⟨u, hu⟩ := hentry
    simp only [State.entryStep, hu, andThen_next]
    split <;> exact ⟨_, rfl⟩
  | poll =>
    obtain ⟨w, hw, -⟩ := State.countdownOk_iff.mp (h.flightPoll hp hs)
    simp only [State.pollStep, hw]
    split <;> exact ⟨_, rfl⟩

end State.Inv

/-- Reading memory, a caller's port keeps its width and whether its caller waits. -/
theorem State.Inv.load {s : State} (h : s.Inv) (c addr n : Nat) :
    (s.onCaller c fun p => { p with seen := s.mem.readMany addr n }).Inv :=
  h.onCaller (fun p hp => h.valuesFit p (List.mem_of_getElem? hp)) fun _ _ => rfl

/-- A caller that receives its response waited for none undelivered, before and after. -/
theorem State.Inv.receive {s : State} (h : s.Inv) (c : Nat) : (s.onCaller c CallerPort.receive).Inv := by
  refine h.onCaller (fun p hp => ?_) fun p _ => ?_ <;> rw [CallerPort.receive_eq]
  · exact h.valuesFit p (List.mem_of_getElem? hp)
  · simp

/-- Settles O45, turn by turn: the controller's moves, the instructions and the callers' own turns each keep it. -/
theorem stepKeepsInvariant : Obligations.StepKeepsInvariant := by
  intro s t h hstep
  rcases step_cases hstep with ⟨-, hc⟩ | ⟨a, u, rfl, -, hturn⟩
  · exact h.ofMoves (State.controllerStep_moves hc)
  have hu := h.withAgenda s.agenda.tail
  rcases hturn with ⟨-, hc⟩ | rfl | ⟨c, w, buf, cap, i, -, hmove, -, he⟩ | ⟨c, w, buf, cap, e, -, -, -, rfl⟩ |
    ⟨c, -, rfl⟩ | ⟨c, addr, n, -, -, -, rfl⟩ | ⟨c, addr, v, -, -, haddr, rfl⟩ | ⟨w, i, -, hd, he⟩
  · exact hu.ofMoves (State.controllerStep_moves hc)
  · exact hu
  · exact (hu.latchCommand c w buf cap).ofExec (fun _ => hmove) he
  · exact (hu.latchCommand c w buf cap).refuse e
  · exact hu.receive c
  · exact hu.load c addr n
  · exact hu.memWrite haddr v
  · exact hu.ofExec (fun hcmd => by rw [decodeEvent_isCommand hd] at hcmd; cases hcmd) he

/-- A lawful turn from a state that meets the invariant has a next state. -/
theorem State.Inv.takeTurn_next {s : State} (h : s.Inv) {a : Turn} (ha : a.lawful s.cfg = true) :
    ∃ t, s.takeTurn a = .next t := by
  cases a with
  | controller => exact h.controllerStep_next
  | issue c w buf cap =>
    simp only [State.takeTurn, State.runCommand]
    split
    · split
      · exact exec_next _ _
      · exact ⟨_, rfl⟩
    · exact ⟨_, rfl⟩
  | receive c => exact ⟨_, rfl⟩
  | load c addr n =>
    have hspace : s.inSpace addr n = true := ha
    simp only [State.takeTurn, State.callerLoad, hspace, if_true]
    split <;> exact ⟨_, rfl⟩
  | store c addr v =>
    have hspace : s.inSpace addr 1 = true := ha
    simp only [State.takeTurn, State.callerStore, hspace, if_true]
    split <;> exact ⟨_, rfl⟩
  | busEvent w =>
    simp only [Turn.lawful] at ha
    simp only [State.takeTurn, State.runEvent]
    cases hd : decodeEvent w with
    | ok i => exact exec_next i s
    | error e => simp [hd] at ha

/-- Settles O46: the controller's step and every lawful turn have a next state. -/
theorem noFaultFromInvariant : Obligations.NoFaultFromInvariant := by
  intro s h hlawful
  cases ha : s.agenda with
  | nil =>
    rw [step_agenda_nil ha]
    exact h.controllerStep_next
  | cons a rest =>
    rw [step_agenda_cons ha]
    exact (h.withAgenda rest).takeTurn_next (hlawful a (by rw [ha]; rfl))

end Sys2Proof.Machine
end
section
/-! Caller memory: what a step writes there, and the memory turns of a free caller. -/

namespace Sys2Proof.Machine

/-! ### Which bytes a step writes -/

/-- No instruction writes caller memory: the two agents that write it are R_RXBYTE and a caller (20_memory.md R56, R57). -/
theorem exec_mem {i : Instr} {s t : State} (h : exec i s = .next t) : t.mem = s.mem := by
  rcases exec_cases h with ⟨e, -, rfl⟩ | ⟨d, b, -, -, rfl⟩ | ⟨d, a, r, v, b, -, -, rfl⟩ |
    ⟨d, a, r, l, b, -, -, rfl⟩ | ⟨-, rfl⟩ | ⟨-, rfl⟩
  case inl => exact State.refuse_mem e s
  all_goals rfl

/-- Of the controller's moves only R_RXBYTE writes memory: the byte drawn, at `TBUF + TOFF` (43_read.md R167). -/
theorem State.Moves.mem {s t : State} (h : s.Moves t) :
    t.mem = s.mem ∨ s.phase = .rRxbyte ∧ t.mem = s.mem.write (s.tbuf + s.toff.toNat) s.drawByte := by
  cases h with
  | receive _ hp _ => exact .inr ⟨hp, rfl⟩
  | rest | arm | finish | burst => exact .inl rfl
  | satisfied | again => exact .inl (by rw [State.sampleFlag_frame])
  | expire => exact .inl (by rw [State.sampleFlag_frame]; rfl)

/-- A step leaves memory alone, stores the byte of R_RXBYTE, or stores the byte of a caller's turn. -/
theorem step_mem {s t : State} (h : step s = .next t) :
    t.mem = s.mem ∨
    (s.phase = .rRxbyte ∧ t.mem = s.mem.write (s.tbuf + s.toff.toNat) s.drawByte) ∨
    ∃ c a v rest, s.agenda = .store c a v :: rest ∧ t.mem = s.mem.write a v := by
  rcases step_cases h with ⟨-, hc⟩ | ⟨turn, u, rfl, ha, hturn⟩
  · exact (State.controllerStep_moves hc).mem.imp_right .inl
  rcases hturn with ⟨-, hc⟩ | rfl | ⟨c, w, buf, cap, i, -, -, -, he⟩ | ⟨c, w, buf, cap, e, -, -, -, rfl⟩ |
    ⟨c, -, rfl⟩ | ⟨c, addr, n, -, -, -, rfl⟩ | ⟨c, addr, v, rfl, -, -, rfl⟩ | ⟨w, i, -, -, he⟩
  · exact (State.controllerStep_moves hc).mem.imp_right .inl
  · exact .inl rfl
  · exact .inl (exec_mem he :)
  · exact .inl (State.refuse_mem e _)
  · exact .inl rfl
  · exact .inl rfl
  · obtain ⟨rest, hrest⟩ := List.head?_eq_some_iff.mp ha
    exact .inr (.inr ⟨c, addr, v, rest, hrest, rfl⟩)
  · exact .inl (exec_mem he :)

/-- A byte that a write changed is the one at the address written. -/
theorem Memory.eq_of_read_write_ne {m : Memory} {a b : Nat} {v : Byte} (h : (m.write a v).read b ≠ m.read b) : b = a :=
  not_ne_iff.mp fun hne => h (Memory.read_write_other m v hne)

/-- Settles O51: a step that changes memory writes at one address, and the changed byte is the one there. -/
theorem memoryChangesOnlyWhereWritten : Obligations.MemoryChangesOnlyWhereWritten := by
  intro s t a h hne
  rcases step_mem h with hm | ⟨hp, hm⟩ | ⟨c, b, v, rest, ha, hm⟩ <;> rw [hm] at hne
  · exact absurd rfl hne
  · exact .inl ⟨hp, Memory.eq_of_read_write_ne hne⟩
  · obtain rfl := Memory.eq_of_read_write_ne hne
    exact .inr ⟨c, v, rest, ha⟩

/-! ### The memory turns of a free caller -/

/-- The range check of a caller's access (20_memory.md R51). -/
theorem State.inSpace_iff {s : State} {addr n : Nat} : s.inSpace addr n = true ↔ addr + n ≤ 2 ^ s.cfg.addrWidth :=
  decide_eq_true_iff

theorem State.callerLoad_inside {s : State} {addr n : Nat} (c : Nat) (h : addr + n ≤ 2 ^ s.cfg.addrWidth) :
    s.callerLoad c addr n = .next (s.onCaller c fun p => { p with seen := s.mem.readMany addr n }) :=
  if_pos (State.inSpace_iff.mpr h)

theorem State.callerLoad_outside {s : State} {addr n : Nat} (c : Nat) (h : 2 ^ s.cfg.addrWidth < addr + n) :
    s.callerLoad c addr n = .fault .addressOutsideMemory :=
  if_neg (mt State.inSpace_iff.mp (Nat.not_le.mpr h))

theorem State.callerStore_inside {s : State} {addr : Nat} (v : Byte) (h : addr < 2 ^ s.cfg.addrWidth) :
    s.callerStore addr v = .next { s with mem := s.mem.write addr v } :=
  if_pos (State.inSpace_iff.mpr h)

theorem State.callerStore_outside {s : State} {addr : Nat} (v : Byte) (h : 2 ^ s.cfg.addrWidth ≤ addr) :
    s.callerStore addr v = .fault .addressOutsideMemory :=
  if_neg (mt State.inSpace_iff.mp (Nat.not_le.mpr (Nat.lt_succ_of_le h)))

/-- A caller with nothing outstanding performs the read of its turn (60_exceptions.md R220). -/
theorem step_load {s : State} {c addr n : Nat} {p : CallerPort} {rest : List Turn}
    (hp : s.callers[c]? = some p) (ho : p.outstanding = false) (ha : s.agenda = .load c addr n :: rest) :
    step s = ({ s with agenda := rest }).callerLoad c addr n :=
  (step_agenda_cons ha).trans (if_pos (State.canMove_true.mpr ⟨p, hp, ho⟩))

/-- A caller with nothing outstanding performs the store of its turn (60_exceptions.md R220). -/
theorem step_store {s : State} {c addr : Nat} {v : Byte} {p : CallerPort} {rest : List Turn}
    (hp : s.callers[c]? = some p) (ho : p.outstanding = false) (ha : s.agenda = .store c addr v :: rest) :
    step s = ({ s with agenda := rest }).callerStore addr v :=
  (step_agenda_cons ha).trans (if_pos (State.canMove_true.mpr ⟨p, hp, ho⟩))

/-- Settles O56: `step_load` and `step_store` reduce each clause to the access inside or outside the address space. -/
theorem callerMemoryAccess : Obligations.CallerMemoryAccess := by
  intro s c p rest hp ho
  refine ⟨fun addr n ha hin => ?_, fun addr v ha hin hwf => ?_, fun addr n ha hout => ?_, fun addr v ha hout => ?_⟩
  · refine ⟨_, { p with seen := s.mem.readMany addr n }, (step_load hp ho ha).trans (State.callerLoad_inside c hin), rfl,
      ?_, rfl, Memory.readMany_length s.mem addr n, Memory.readMany_getElem? s.mem addr n, fun d hd => ?_⟩
    · simp [hp]
    · simp [Ne.symm hd]
  · exact ⟨_, (step_store hp ho ha).trans (State.callerStore_inside v hin), rfl, Memory.read_write_same addr v hwf,
      fun a hne => Memory.read_write_other s.mem v hne⟩
  · exact (step_load hp ho ha).trans (State.callerLoad_outside c hout)
  · exact (step_store hp ho ha).trans (State.callerStore_outside v hout)

end Sys2Proof.Machine
end
section
/-! The layout of a word: the word of an instruction is the one whose fields are the instruction's. -/

namespace Sys2Proof

/-! ### Codes of enumerations (30_encoding.md R82) -/

theorem EndMode.ofCode_eq_some {c : BitVec 2} {e : EndMode} : EndMode.ofCode c = some e ↔ c = e.code := by
  cases e <;> revert c <;> decide

theorem Dir.ofCode_eq {c : Bit} {d : Dir} : Dir.ofCode c = d ↔ c = d.code := by
  cases d <;> revert c <;> decide

theorem Flag.ofCode_eq_some {c : BitVec 4} {f : Flag} : Flag.ofCode c = some f ↔ c = f.code := by
  cases f <;> revert c <;> decide

/-! ### Fields as numbers -/

theorem opOf_toNat (w : Word) : (opOf w).toNat = w.toNat / 2 ^ 28 := by
  rw [opOf, BitVec.extractLsb'_toNat, Nat.shiftRight_eq_div_pow]
  exact Nat.mod_eq_of_lt (Nat.div_lt_of_lt_mul w.isLt)

theorem opOf_eq_ofNat {w : Word} {k : Nat} (h : (opOf w).toNat = k) : opOf w = BitVec.ofNat 4 k := by
  rw [← h, BitVec.ofNat_toNat, BitVec.setWidth_eq]

theorem extractLsb'_eq_zero_iff {w : Word} {s n : Nat} : w.extractLsb' s n = 0#n ↔ w.toNat / 2 ^ s % 2 ^ n = 0 := by
  rw [BitVec.toNat_eq, BitVec.extractLsb'_toNat, Nat.shiftRight_eq_div_pow, BitVec.toNat_ofNat, Nat.zero_mod]

/-! ### Words given by their fields (30_encoding.md R71, R78, R79) -/

/-- `m + n` bits of a word are two given parts exactly when each part is what stands at its place. -/
theorem extractLsb'_eq_append (m n : Nat) {w : Word} {s : Nat} {hi : BitVec m} {lo : BitVec n} :
    w.extractLsb' s (m + n) = hi ++ lo ↔ w.extractLsb' (s + n) m = hi ∧ w.extractLsb' s n = lo := by
  rw [← BitVec.extractLsb'_append_extractLsb'_eq_extractLsb' rfl]
  constructor
  · intro h
    exact ⟨by simpa only [BitVec.extractLsb'_append_eq_left] using congrArg (BitVec.extractLsb' n m) h,
      by simpa only [BitVec.extractLsb'_append_eq_right] using congrArg (BitVec.extractLsb' 0 n) h⟩
  · rintro ⟨rfl, rfl⟩
    rfl

theorem append_eq_word {w : Word} {c : BitVec 4} {rest : BitVec 28} :
    c ++ rest = w ↔ opOf w = c ∧ w.extractLsb' 0 28 = rest := by
  have h := extractLsb'_eq_append 4 28 (w := w) (s := 0) (hi := c) (lo := rest)
  rwa [BitVec.extractLsb'_eq_self, eq_comm] at h

theorem append_payload_eq_word {w : Word} {c d : BitVec 4} {payload : BitVec 24} :
    c ++ (d ++ payload) = w ↔ opOf w = c ∧ devOf w = d ∧ w.extractLsb' 0 24 = payload :=
  append_eq_word.trans (and_congr_right' (extractLsb'_eq_append 4 24))

/-- The layout that WRITE, WRITEC, READ and READC share (30_encoding.md R71). -/
theorem append_register_eq_word {w : Word} {c d : BitVec 4} {rsv : Bit} {a : Addr7} {r l : Byte} :
    c ++ (d ++ (rsv ++ (a ++ (r ++ l)))) = w ↔
      opOf w = c ∧ devOf w = d ∧ rsvOf w = rsv ∧ addr7Of w = a ∧ regOf w = r ∧ lowByteOf w = l := by
  rw [append_payload_eq_word, extractLsb'_eq_append 1 23, extractLsb'_eq_append 7 16, extractLsb'_eq_append 8 8]
  rfl

/-! ### The fields of each instruction -/

/-- The fields of `w`, reserved ones among them, are as the row of the instruction has them (30_encoding.md R72, R79). -/
def Instr.FieldsOf (w : Word) : Instr → Prop
  | .init dev => opOf w = 1 ∧ devOf w = dev ∧ w.extractLsb' 0 24 = 0
  | .write dev a r d => opOf w = 2 ∧ devOf w = dev ∧ rsvOf w = 0 ∧ addr7Of w = a ∧ regOf w = r ∧ lowByteOf w = d
  | .writec a r d => opOf w = 3 ∧ devOf w = 0 ∧ rsvOf w = 0 ∧ addr7Of w = a ∧ regOf w = r ∧ lowByteOf w = d
  | .read dev a r l => opOf w = 4 ∧ devOf w = dev ∧ rsvOf w = 0 ∧ addr7Of w = a ∧ regOf w = r ∧ lowByteOf w = l
  | .readc a r l => opOf w = 5 ∧ devOf w = 0 ∧ rsvOf w = 0 ∧ addr7Of w = a ∧ regOf w = r ∧ lowByteOf w = l
  | .geterr => opOf w = 6 ∧ w.extractLsb' 0 28 = 0
  | .begin b e st d n sa =>
    opOf w = 8 ∧ devOf w = b ∧ EndMode.ofCode (w.extractLsb' 22 2) = some e ∧ w.extractLsb' 21 1 = st ∧
      Dir.ofCode (w.extractLsb' 20 1) = d ∧ w.extractLsb' 16 4 = 0 ∧ regOf w = n ∧ lowByteOf w = sa
  | .tx b v => opOf w = 9 ∧ devOf w = b ∧ w.extractLsb' 8 16 = 0 ∧ lowByteOf w = v
  | .rx b v => opOf w = 10 ∧ devOf w = b ∧ w.extractLsb' 8 16 = 0 ∧ lowByteOf w = v
  | .clrstop b => opOf w = 11 ∧ devOf w = b ∧ w.extractLsb' 0 24 = 0
  | .sample b f v =>
    opOf w = 12 ∧ devOf w = b ∧ Flag.ofCode (w.extractLsb' 20 4) = some f ∧ w.extractLsb' 1 19 = 0 ∧
      w.extractLsb' 0 1 = v
  | .config b o => opOf w = 13 ∧ devOf w = b ∧ w.extractLsb' 1 23 = 0 ∧ w.extractLsb' 0 1 = o

theorem encode_eq_iff {i : Instr} {w : Word} : encode i = w ↔ i.FieldsOf w := by
  cases i with
  | geterr => exact append_eq_word
  | init dev | clrstop b => exact append_payload_eq_word
  | write dev a r d | writec a r d | read dev a r l | readc a r l => exact append_register_eq_word
  | tx b v | rx b v =>
    rw [encode, append_payload_eq_word, extractLsb'_eq_append 16 8]
    rfl
  | config b o =>
    rw [encode, append_payload_eq_word, extractLsb'_eq_append 23 1]
    rfl
  | sample b f v =>
    rw [encode, append_payload_eq_word, extractLsb'_eq_append 4 20, extractLsb'_eq_append 19 1, ← Flag.ofCode_eq_some]
    rfl
  | begin b e st d n sa =>
    rw [encode, append_payload_eq_word, extractLsb'_eq_append 2 22, extractLsb'_eq_append 1 21,
      extractLsb'_eq_append 1 20, extractLsb'_eq_append 4 16, extractLsb'_eq_append 8 8, ← EndMode.ofCode_eq_some,
      ← Dir.ofCode_eq]
    rfl

end Sys2Proof
end
section
/-! The two decoders and `decode`: the words each accepts, and what it refuses the others for. -/

namespace Sys2Proof

/-! ### Accepted words -/

theorem decodeCommand_eq_ok {w : Word} {i : Instr} :
    decodeCommand w = .ok i ↔ i.isCommand = true ∧ encode i = w := by
  rw [encode_eq_iff]
  constructor
  · intro h
    unfold decodeCommand at h
    split at h
    case h_7 => cases h
    all_goals
      rename_i hop
      split at h <;> cases h
      rename_i hres
      simp [Instr.isCommand, Instr.FieldsOf, opOf_eq_ofNat hop, hres]
  · rintro ⟨hc, hf⟩
    cases i <;> cases hc
    all_goals
      unfold Instr.FieldsOf at hf
      simp [decodeCommand, hf]

theorem decodeEvent_eq_ok {w : Word} {i : Instr} :
    decodeEvent w = .ok i ↔ i.isCommand = false ∧ encode i = w := by
  rw [encode_eq_iff]
  constructor
  · intro h
    refine ⟨Machine.decodeEvent_isCommand h, ?_⟩
    unfold decodeEvent at h
    split at h
    case h_7 => cases h
    case h_1 hop | h_5 hop =>
      split at h
      case isFalse => cases h
      case isTrue hres =>
        split at h <;> cases h
        rename_i hcode
        simp [Instr.FieldsOf, opOf_eq_ofNat hop, hres, hcode]
    all_goals
      rename_i hop
      split at h <;> cases h
      rename_i hres
      simp [Instr.FieldsOf, opOf_eq_ofNat hop, hres]
  · rintro ⟨hc, hf⟩
    cases i <;> cases hc
    all_goals
      unfold Instr.FieldsOf at hf
      simp [decodeEvent, hf]

theorem isEventWord_encode (i : Instr) : isEventWord (encode i) = !i.isCommand := by
  cases i <;> exact Laws.FormatByOpcode.of_append rfl rfl

theorem decode_eq_ok {w : Word} {i : Instr} : decode w = .ok i ↔ encode i = w := by
  constructor
  · intro h
    unfold decode at h
    split at h <;> split at h <;> cases h
    · next hd => exact (decodeEvent_eq_ok.mp hd).2
    · next hd => exact (decodeCommand_eq_ok.mp hd).2
  · rintro rfl
    unfold decode
    rw [isEventWord_encode]
    cases hc : i.isCommand with
    | true => rw [decodeCommand_eq_ok.mpr ⟨hc, rfl⟩]; rfl
    | false => rw [decodeEvent_eq_ok.mpr ⟨hc, rfl⟩]; rfl

/-! ### Refused words -/

/-- `OP` names a command, and a field that the command's row reserves is not 0 (30_encoding.md R76). -/
def ReservedFieldSet (w : Word) : Prop :=
  ((opOf w).toNat = 1 ∧ w.extractLsb' 0 24 ≠ 0) ∨
  (((opOf w).toNat = 2 ∨ (opOf w).toNat = 4) ∧ rsvOf w ≠ 0) ∨
  (((opOf w).toNat = 3 ∨ (opOf w).toNat = 5) ∧ ¬ (rsvOf w = 0 ∧ devOf w = 0)) ∨
  ((opOf w).toNat = 6 ∧ w.extractLsb' 0 28 ≠ 0)

theorem decodeCommand_eq_error {w : Word} {r : RefuseReason} :
    decodeCommand w = .error r ↔
      (r = .reservedOp ∧ ((opOf w).toNat = 0 ∨ 7 ≤ (opOf w).toNat)) ∨ (r = .reservedField ∧ ReservedFieldSet w) := by
  unfold decodeCommand ReservedFieldSet
  split
  case h_7 =>
    have hop : (opOf w).toNat = 0 ∨ 7 ≤ (opOf w).toNat := by
      simp only [imp_false] at *
      omega
    simp_all [eq_comm (a := r)]
  all_goals
    rename_i hop
    rw [hop]
    split <;> simp_all [eq_comm (a := r)]

theorem decodeEvent_eq_reservedKind {w : Word} :
    decodeEvent w = .error .reservedKind ↔ (opOf w).toNat < 8 ∨ 13 < (opOf w).toNat := by
  unfold decodeEvent
  split
  case h_7 =>
    simp only [imp_false, true_iff] at *
    omega
  case h_1 hop | h_5 hop =>
    rw [hop]
    split
    · split <;> simp
    · simp
  all_goals
    rename_i hop
    rw [hop]
    split <;> simp

/-! ### The settled statements -/

/-- Settles O3: the encoded word has the instruction's fields, so the decoder reads the instruction off it. -/
theorem decodeOfEncode : Obligations.DecodeOfEncode :=
  fun _ => decode_eq_ok.mpr rfl

/-- Settles O4: a word that decodes has the fields of the instruction, which leave no bit open. -/
theorem encodeOfDecode : Obligations.EncodeOfDecode :=
  fun _ _ => decode_eq_ok.mp

/-- Settles O5: the refusals by `OP` and by reserved field, in numbers, and otherwise `decodeCommand_eq_ok`. -/
theorem commandDecoderTotal : Obligations.CommandDecoderTotal := by
  intro w
  refine ⟨?_, ?_, ?_⟩
  · simp [decodeCommand_eq_error, opOf_toNat]
  · simp [decodeCommand_eq_error, ReservedFieldSet, opOf_toNat, rsvOf, devOf, extractLsb'_eq_zero_iff, imp_iff_not_or]
  · cases hd : decodeCommand w with
    | ok i => exact .inr (.inr ⟨i, rfl, decodeCommand_eq_ok.mp hd⟩)
    | error r =>
      rcases decodeCommand_eq_error.mp hd with ⟨rfl, -⟩ | ⟨rfl, -⟩
      · exact .inl rfl
      · exact .inr (.inl rfl)

/-- Settles O6: `decodeEvent_eq_ok` for each instruction, and the reserved kinds in numbers. -/
theorem eventDecoderTotal : Obligations.EventDecoderTotal := by
  intro w
  refine ⟨exists_congr fun _ => decodeEvent_eq_ok, ?_⟩
  rw [decodeEvent_eq_reservedKind, opOf_toNat]

/-- Settles O1: the encoder is evaluated on the seven instructions, and decoding its words is the round trip. -/
theorem commandWordExamples : Obligations.CommandWordExamples := by
  intro p hp
  have hword : encode p.1 = p.2 ∧ p.1.isCommand = true := by
    revert p
    decide
  obtain ⟨he, hc⟩ := hword
  exact ⟨he, decodeCommand_eq_ok.mpr ⟨hc, he⟩, decode_eq_ok.mpr he⟩

end Sys2Proof
end
section
/-! The issue turn of an undecodable word and the turn of an event word: the settled statements. -/

namespace Sys2Proof.Machine

/-- Settles O10: a free caller's issue turn latches the port and refuses the word. -/
theorem stepRefusesUndecodableWord : Obligations.StepRefusesUndecodableWord := by
  intro s c p w buf cap rest r ha hp ho hd
  have hmove : ({ s with agenda := rest }).canMove c = true := State.canMove_true.mpr ⟨p, hp, ho⟩
  rw [step_agenda_cons ha]
  simp only [State.takeTurn, hmove, if_true, State.runCommand, hd, State.refuse_eq]
  rfl

/-- Settles O11: the event turn decodes its word, and each answer of the decoder is one clause. -/
theorem stepRunsEventWord : Obligations.StepRunsEventWord := by
  intro s w rest ha
  rw [step_agenda_cons ha]
  refine ⟨fun i hd => ?_, fun e hd => ?_⟩ <;> simp only [State.takeTurn, State.runEvent, hd]

end Sys2Proof.Machine
end

section
/-! The controller's step, move by move, as equations: what a step from each kind of state is. The statements about a
single sample follow (40_timer.md R101 to R105). -/

namespace Sys2Proof.Machine

/-! ### One equation per move -/

/-- A sample, with the answer drawn written out. -/
theorem State.sampleFlag_of_draw {s : State} {v : Bit} (f : Flag) (hv : s.drawBit = v) :
    s.sampleFlag f = { s.tookBit with hist := s.hist ++ [.event (encode (.sample s.tbus f v))] } := by
  simp [State.log, hv]

theorem State.controllerStep_entry {s : State} (hp : s.phase ≠ .idle) (hs : s.stage = .entry) :
    s.controllerStep = s.entryStep := by
  simp [State.controllerStep, hp, hs]

theorem State.controllerStep_poll {s : State} {w : Wait} (hs : s.stage = .poll) (hw : waitOf s.phase = some w) :
    s.controllerStep = s.pollStep := by
  simp [State.controllerStep, ne_idle_of_waitOf hw, hs]

/-- ENTRY of a waiting phase (40_timer.md R106). -/
theorem State.controllerStep_arm {s : State} {w : Wait} (hs : s.stage = .entry) (hw : waitOf s.phase = some w) :
    s.controllerStep = .next { s.entered with ctr := Params.budget s.cfg w.budget, stage := .poll } := by
  have hne : s.phase ≠ .rRxbyte := fun hp => by rw [hp] at hw; cases hw
  rw [State.controllerStep_entry (ne_idle_of_waitOf hw) hs, State.entryStep, State.entryAction_eq hne, andThen_next, hw]
  rfl

/-- ENTRY of a phase without a wait (40_timer.md R106). -/
theorem State.controllerStep_leave {s u : State} (hp : s.phase ≠ .idle) (hs : s.stage = .entry)
    (hw : waitOf s.phase = none) (hu : s.entryAction = .next u) : s.controllerStep = .next u.leavePhase := by
  rw [State.controllerStep_entry hp hs, State.entryStep, hu, andThen_next, hw]

/-- ENTRY of W_CLRSTOP or R_CLRSTOP (42_write.md R147; 43_read.md R169). -/
theorem State.controllerStep_finish {s : State} (hs : s.stage = .entry) (hp : s.phase = .wClrstop ∨ s.phase = .rClrstop) :
    s.controllerStep = .next (s.entered.complete 1) := by
  have hleave : s.entered.leavePhase = s.entered.complete 1 := by
    rcases hp with hp | hp <;> simp [State.leavePhase, State.entered, hp]
  rw [← hleave]
  rcases hp with hp | hp
  all_goals exact State.controllerStep_leave (by simp [hp]) hs (by rw [hp]; rfl) (State.entryAction_eq (by simp [hp]))

/-- ENTRY of R_READCFG (43_read.md R165). -/
theorem State.controllerStep_burst {s : State} (hs : s.stage = .entry) (hp : s.phase = .rReadcfg) :
    s.controllerStep = .next s.entered.nextReceive := by
  have hleave : s.entered.leavePhase = s.entered.nextReceive := by simp [State.leavePhase, State.entered, hp]
  rw [← hleave]
  exact State.controllerStep_leave (by simp [hp]) hs (by rw [hp]; rfl) (State.entryAction_eq (by simp [hp]))

/-- ENTRY of R_RXBYTE (43_read.md R167). -/
theorem State.controllerStep_receive {s : State} (hs : s.stage = .entry) (hp : s.phase = .rRxbyte)
    (ha : s.tbuf + s.toff.toNat < 2 ^ s.cfg.addrWidth) : s.controllerStep = .next s.storedByte.nextReceive := by
  have hleave : s.storedByte.leavePhase = s.storedByte.nextReceive := by
    simp [State.leavePhase, State.storedByte, hp]
  rw [← hleave]
  refine State.controllerStep_leave (by simp [hp]) hs (by rw [hp]; rfl) ?_
  rw [State.entryAction, hp]
  exact State.receiveByte_inside ha

/-- A satisfied sample (40_timer.md R102). -/
theorem State.controllerStep_satisfied {s : State} {w : Wait} (hs : s.stage = .poll) (hw : waitOf s.phase = some w)
    (hv : s.drawBit = w.want) :
    s.controllerStep = .next { s.tookBit with
      hist := s.hist ++ [.event (encode (.sample s.tbus w.flag w.want))], phase := w.successor, stage := .entry } := by
  rw [State.controllerStep_poll hs hw, State.pollStep, hw]
  simp only [Wait.satisfiedBy, hv, decide_true, if_true, State.sampleFlag_of_draw w.flag hv]

/-- A sample that fails, before the countdown is looked at (40_timer.md R103). -/
theorem State.controllerStep_unsatisfied {s : State} {w : Wait} {v : Bit} (hs : s.stage = .poll)
    (hw : waitOf s.phase = some w) (hv : s.drawBit = v) (hbad : v ≠ w.want) :
    s.controllerStep = .next ({ s.tookBit with
      hist := s.hist ++ [.event (encode (.sample s.tbus w.flag v))] } : State).failedSample := by
  rw [State.controllerStep_poll hs hw, State.pollStep, hw]
  simp only [Wait.satisfiedBy, hv, hbad, decide_false, Bool.false_eq_true, if_false, State.sampleFlag_of_draw w.flag hv]

/-- A failed sample with samples left (40_timer.md R103). -/
theorem State.controllerStep_again {s : State} {w : Wait} {v : Bit} (hs : s.stage = .poll)
    (hw : waitOf s.phase = some w) (hv : s.drawBit = v) (hbad : v ≠ w.want) (hc : 2 ≤ s.ctr) :
    s.controllerStep = .next { s.tookBit with
      hist := s.hist ++ [.event (encode (.sample s.tbus w.flag v))], ctr := s.ctr - 1 } := by
  have : ¬ s.ctr - 1 = 0 := by omega
  rw [State.controllerStep_unsatisfied hs hw hv hbad]
  simp [State.failedSample, this]

/-- The last failed sample (40_timer.md R104). -/
theorem State.controllerStep_expire {s : State} {w : Wait} {v : Bit} (hs : s.stage = .poll)
    (hw : waitOf s.phase = some w) (hv : s.drawBit = v) (hbad : v ≠ w.want) (hc : s.ctr = 1) :
    s.controllerStep = .next ({ s.tookBit with
      hist := s.hist ++ [.event (encode (.sample s.tbus w.flag v))], ctr := 0 } : State).timeout := by
  rw [State.controllerStep_unsatisfied hs hw hv hbad]
  simp [State.failedSample, hc]

/-- `Timeout()` in one update (40_timer.md R105). -/
theorem State.timeout_eq (s : State) :
    s.timeout = { s with
      errcnt := (s.errcnt + 1) % 2 ^ s.cfg.errWidth
      phase := .idle
      callers := s.callers.modify s.tcaller fun p => { p with response := some (.ok 0), rspOk := 0 } } := rfl

/-! ### The rows of the waits -/

/-- The other value of the flag, which does not satisfy the wait. -/
def Wait.unwanted (w : Wait) : Bit := ~~~w.want

theorem Wait.unwanted_ne (w : Wait) : w.unwanted ≠ w.want := by
  unfold Wait.unwanted
  generalize w.want = v
  revert v
  decide

/-- The ten waits of the phase table in its order (30_encoding.md R80), each as `row` shows it. The lists of rows that the
statements write out are this list by evaluation. -/
def waitRows {α : Type} (row : Phase → Wait → α) : List α :=
  [Phase.wBusfree, .wAddr, .wReg, .wDatacfg, .wData, .rBusfree, .rAddr, .rReg, .rRecv, .rStop].filterMap fun p =>
    (waitOf p).map (row p)

theorem exists_wait_of_mem_waitRows {α : Type} (row : Phase → Wait → α) {r : α} (h : r ∈ waitRows row) :
    ∃ p w, waitOf p = some w ∧ row p w = r := by
  obtain ⟨p, -, hp⟩ := List.mem_filterMap.mp h
  obtain ⟨w, hw, hr⟩ := Option.map_eq_some_iff.mp hp
  exact ⟨p, w, hw, hr⟩

/-! ### The settled statements about one sample -/

/-- Settles O36: the rows of the statement are the table's, and the step is `controllerStep_satisfied`. -/
theorem satisfiedSampleEndsWait : Obligations.SatisfiedSampleEndsWait := by
  intro s p f want q hrow hp hs hv
  obtain ⟨p, w, hw, ⟨⟩⟩ := exists_wait_of_mem_waitRows (fun p w => (p, w.flag, w.want, w.successor)) hrow
  exact State.controllerStep_satisfied hs (hp ▸ hw) hv

/-- Settles O37: `controllerStep_again` at each row. -/
theorem failedSampleCountsDown : Obligations.FailedSampleCountsDown := by
  intro s p f bad hrow hp hs hv hc
  obtain ⟨p, w, hw, ⟨⟩⟩ := exists_wait_of_mem_waitRows (fun p w => (p, w.flag, w.unwanted)) hrow
  exact State.controllerStep_again hs (hp ▸ hw) hv w.unwanted_ne hc

/-- Settles O38: `controllerStep_expire` at each row, with what `Timeout()` writes. -/
theorem exhaustedWaitTimesOut : Obligations.ExhaustedWaitTimesOut := by
  intro s p f bad hrow hp hs hv hc
  obtain ⟨p, w, hw, ⟨⟩⟩ := exists_wait_of_mem_waitRows (fun p w => (p, w.flag, w.unwanted)) hrow
  rw [State.controllerStep_expire hs (hp ▸ hw) hv w.unwanted_ne hc]
  simp [State.timeout_eq]

/-- Settles O49: the moves from POLL are a satisfied sample, a failed one and the last one, and each takes one sample. -/
theorem pollTakesOneSample : Obligations.PollTakesOneSample := by
  intro s t hp hs h
  cases State.controllerStep_moves h with
  | rest hidle => exact absurd hidle hp
  | arm he | finish he | burst he | receive he => rw [he] at hs; cases hs
  | @satisfied w | @again w | @expire w => exact ⟨w.flag, by simp⟩

end Sys2Proof.Machine
end

section
/-! The samples of one wait, counted (40_timer.md R112). -/

namespace Sys2Proof.Machine

theorem runSteps_of_step {s t : State} (h : step s = .next t) (n : Nat) : runSteps (n + 1) s = runSteps n t := by
  rw [runSteps_succ, h, andThen_next]

theorem runSteps_then_step {s t u : State} {n : Nat} (h : runSteps n s = .next t) (hstep : step t = .next u) :
    runSteps (n + 1) s = .next u := by
  rw [runSteps_add, h, andThen_next, runSteps_of_step hstep, runSteps_zero]

/-! ### One sample whose answer is scripted -/

section
variable {s : State} {w : Wait} {v : Bit} {rest : List Bit}

theorem step_satisfied (hs : s.stage = .poll) (hw : waitOf s.phase = some w) (ha : s.agenda = [])
    (hscript : s.sampleScript = w.want :: rest) :
    step s = .next { s with
      sampleScript := rest
      hist := s.hist ++ [.event (encode (.sample s.tbus w.flag w.want))], phase := w.successor, stage := .entry } := by
  rw [step_agenda_nil ha, State.controllerStep_satisfied hs hw (State.drawBit_script hscript),
    State.tookBit_script hscript]

theorem step_again (hs : s.stage = .poll) (hw : waitOf s.phase = some w) (ha : s.agenda = [])
    (hscript : s.sampleScript = v :: rest) (hbad : v ≠ w.want) (hc : 2 ≤ s.ctr) :
    step s = .next { s with
      sampleScript := rest
      hist := s.hist ++ [.event (encode (.sample s.tbus w.flag v))], ctr := s.ctr - 1 } := by
  rw [step_agenda_nil ha, State.controllerStep_again hs hw (State.drawBit_script hscript) hbad hc,
    State.tookBit_script hscript]

theorem step_expire (hs : s.stage = .poll) (hw : waitOf s.phase = some w) (ha : s.agenda = [])
    (hscript : s.sampleScript = v :: rest) (hbad : v ≠ w.want) (hc : s.ctr = 1) :
    step s = .next ({ s with
      sampleScript := rest
      hist := s.hist ++ [.event (encode (.sample s.tbus w.flag v))], ctr := 0 } : State).timeout := by
  rw [step_agenda_nil ha, State.controllerStep_expire hs hw (State.drawBit_script hscript) hbad hc,
    State.tookBit_script hscript]

/-! ### All samples of a wait -/

/-- `n` failed samples with at least one left: `n` SAMPLE events, and the countdown down by `n`. -/
theorem runSteps_failedSamples (hbad : v ≠ w.want) (n : Nat) (hs : s.stage = .poll) (hw : waitOf s.phase = some w)
    (ha : s.agenda = []) (hn : n < s.ctr) (hscript : s.sampleScript = List.replicate n v ++ rest) :
    runSteps n s = .next { s with
      sampleScript := rest
      hist := s.hist ++ List.replicate n (.event (encode (.sample s.tbus w.flag v)))
      ctr := s.ctr - n } := by
  induction n generalizing s with
  | zero =>
    obtain rfl : s.sampleScript = rest := hscript
    simp
  | succ n ih =>
    have hstep := step_again hs hw ha hscript hbad (by omega)
    refine (runSteps_of_step hstep n).trans (Eq.trans (ih hs hw ha (Nat.lt_sub_of_add_lt hn) rfl) ?_)
    simp [List.replicate_succ, Nat.sub_sub, Nat.add_comm 1 n]

/-- A wait whose sample number `n + 1` is the first that satisfies it takes that many samples. -/
theorem runSteps_satisfied (hbad : v ≠ w.want) {n : Nat} (hs : s.stage = .poll) (hw : waitOf s.phase = some w)
    (ha : s.agenda = []) (hn : n < s.ctr) (hscript : s.sampleScript = List.replicate n v ++ w.want :: rest) :
    runSteps (n + 1) s = .next { s with
      sampleScript := rest
      hist := s.hist ++ List.replicate n (.event (encode (.sample s.tbus w.flag v))) ++
        [.event (encode (.sample s.tbus w.flag w.want))]
      ctr := s.ctr - n, phase := w.successor, stage := .entry } :=
  runSteps_then_step (runSteps_failedSamples hbad n hs hw ha hn hscript) (step_satisfied hs hw ha rfl)

/-- A wait all of whose samples fail takes as many as the countdown says, and the last is `Timeout()`. -/
theorem runSteps_expired (hbad : v ≠ w.want) {n : Nat} (hs : s.stage = .poll) (hw : waitOf s.phase = some w)
    (ha : s.agenda = []) (hn : s.ctr = n + 1) (hscript : s.sampleScript = List.replicate (n + 1) v ++ rest) :
    runSteps (n + 1) s = .next ({ s with
      sampleScript := rest
      hist := s.hist ++ List.replicate (n + 1) (.event (encode (.sample s.tbus w.flag v)))
      ctr := 0 } : State).timeout := by
  rw [List.replicate_succ', List.append_assoc] at hscript
  rw [List.replicate_succ', ← List.append_assoc]
  exact runSteps_then_step (runSteps_failedSamples hbad n hs hw ha (by omega) hscript)
    (step_expire hs hw ha rfl hbad (by simp [hn]))

end

/-- Settles O39: the failed samples first, then the one that satisfies the wait or the last one that fails. -/
theorem waitSampleCount : Obligations.WaitSampleCount := by
  intro s p f want bad q rest hrow hp hs ha hc
  obtain ⟨p, w, hw, ⟨⟩⟩ :=
    exists_wait_of_mem_waitRows (fun p w => (p, w.flag, w.want, w.unwanted, w.successor)) hrow
  rw [← hp] at hw
  refine ⟨fun k hk hkc hscript => ?_, fun hscript => ?_⟩
  · obtain ⟨n, rfl⟩ := Nat.exists_eq_add_of_le' hk
    exact runSteps_satisfied w.unwanted_ne hs hw ha hkc hscript
  · obtain ⟨n, hn⟩ := Nat.exists_eq_add_of_le' hc
    rw [hn] at hscript ⊢
    exact runSteps_expired w.unwanted_ne hs hw ha hn hscript

end Sys2Proof.Machine
end

section
/-! Runs with a bound on their steps, and bytes stored in memory in order. -/

namespace Sys2Proof.Machine

/-! ### Reaching a state within a number of steps -/

/-- Within `n` steps the run from `s` reaches a state with `Q`. -/
def State.Within (n : Nat) (s : State) (Q : State → Prop) : Prop :=
  ∃ k t, k ≤ n ∧ runSteps k s = .next t ∧ Q t

theorem State.Within.now {Q : State → Prop} {s : State} (n : Nat) (h : Q s) : State.Within n s Q :=
  ⟨0, s, n.zero_le, rfl, h⟩

theorem State.Within.ofStep {Q : State → Prop} {s t : State} {n : Nat} (hstep : step s = .next t)
    (h : State.Within n t Q) : State.Within (n + 1) s Q := by
  obtain ⟨k, u, hk, hrun, hu⟩ := h
  exact ⟨k + 1, u, Nat.succ_le_succ hk, (runSteps_of_step hstep k).trans hrun, hu⟩

theorem State.Within.mono {Q : State → Prop} {s : State} {m n : Nat} (h : State.Within m s Q) (hmn : m ≤ n) :
    State.Within n s Q := by
  obtain ⟨k, u, hk, hrun, hu⟩ := h
  exact ⟨k, u, hk.trans hmn, hrun, hu⟩

/-! ### Bytes stored in order -/

/-- The bytes with their addresses, from `a` on. -/
def bytesFrom (a : Nat) (bytes : List Byte) : List (Nat × Byte) := bytes.zipIdx.map fun v => (a + v.2, v.1)

theorem bytesFrom_concat (a : Nat) (bytes : List Byte) (v : Byte) :
    bytesFrom a (bytes ++ [v]) = bytesFrom a bytes ++ [(a + bytes.length, v)] := by
  simp [bytesFrom, List.zipIdx_append]

/-- `m` after the writes of `l`, in order. -/
def Memory.writeAll (m : Memory) (l : List (Nat × Byte)) : Memory := l.foldl (fun m c => m.write c.1 c.2) m

theorem Memory.writeAll_concat (m : Memory) (a : Nat) (bytes : List Byte) (v : Byte) :
    m.writeAll (bytesFrom a (bytes ++ [v])) = (m.writeAll (bytesFrom a bytes)).write (a + bytes.length) v := by
  simp [Memory.writeAll, bytesFrom_concat]

theorem Memory.writeAll_wf {m : Memory} (h : m.wf = true) (a : Nat) (bytes : List Byte) :
    (m.writeAll (bytesFrom a bytes)).wf = true := by
  induction bytes using List.reverseRecOn with
  | nil => exact h
  | append_singleton bytes v ih => rw [Memory.writeAll_concat]; exact Memory.write_wf _ _ ih

/-- The stored bytes stand in order from `a` on. -/
theorem Memory.read_writeAll {m : Memory} (h : m.wf = true) (a : Nat) (bytes : List Byte) {i : Nat}
    (hi : i < bytes.length) : (m.writeAll (bytesFrom a bytes)).read (a + i) = bytes[i] := by
  induction bytes using List.reverseRecOn with
  | nil => cases hi
  | append_singleton bytes v ih =>
    rw [Memory.writeAll_concat]
    by_cases hlast : i = bytes.length
    · subst hlast
      simpa using Memory.read_write_same _ v (Memory.writeAll_wf h a bytes)
    · have hlt : i < bytes.length := by simp at hi; omega
      rw [Memory.read_write_other _ v (by omega), ih hlt, List.getElem_append_left hlt]

/-- No other byte changes. -/
theorem Memory.read_writeAll_other (m : Memory) {a b : Nat} {bytes : List Byte} (hb : b < a ∨ a + bytes.length ≤ b) :
    (m.writeAll (bytesFrom a bytes)).read b = m.read b := by
  induction bytes using List.reverseRecOn with
  | nil => rfl
  | append_singleton bytes v ih =>
    simp only [List.length_append, List.length_singleton] at hb
    rw [Memory.writeAll_concat, Memory.read_write_other _ v (by omega), ih (by omega)]

end Sys2Proof.Machine
end

section
/-! Whole operations, for every answer of the bus (40_timer.md R113): the progress an operation makes from state to
state, and a bound on its steps that is summed phase by phase from the last one back. -/

namespace Sys2Proof.Machine

/-! ### An operation in flight -/

/-- From `s` to `t` the controller took samples, performed entry actions and received `bytes`, and did nothing else. -/
structure State.Received (s : State) (bytes : List Byte) (t : State) : Prop where
  frame : t = { s with
    phase := t.phase, stage := t.stage, ctr := t.ctr, hist := t.hist
    mem := s.mem.writeAll (bytesFrom s.tbuf bytes)
    toff := s.toff + BitVec.ofNat 8 bytes.length, trem := s.trem - BitVec.ofNat 8 bytes.length
    sampleScript := t.sampleScript, rxScript := t.rxScript, draws := t.draws }
  records : ∃ new, t.hist = s.hist ++ new ∧ new.filterMap Record.written = bytesFrom s.tbuf bytes

/-- The operation of `s` has ended in `t` with `bytes` received: all `n` of them and `RSP_OK` = 1, or at most `n` and
the count of timeouts up by one with `RSP_OK` = 0. -/
structure State.Ends (s : State) (n : Nat) (bytes : List Byte) (t : State) : Prop where
  phase : t.phase = .idle
  curdev : t.curdev = s.curdev
  buses : t.buses = s.buses
  refused : t.refused = s.refused
  mem : t.mem = s.mem.writeAll (bytesFrom s.tbuf bytes)
  records : ∃ new, t.hist = s.hist ++ new ∧ new.filterMap Record.written = bytesFrom s.tbuf bytes
  outcome : (bytes.length = n ∧ t.errcnt = s.errcnt ∧
      t.callers = s.callers.modify s.tcaller fun p => { p with response := some (.ok 1), rspOk := 1 }) ∨
    (bytes.length ≤ n ∧ t.errcnt = (s.errcnt + 1) % 2 ^ s.cfg.errWidth ∧
      t.callers = s.callers.modify s.tcaller fun p => { p with response := some (.ok 0), rspOk := 0 })

theorem State.tookBit_frame (s : State) :
    s.tookBit = { s with sampleScript := s.tookBit.sampleScript, draws := s.tookBit.draws } := by
  unfold State.tookBit
  split <;> rfl

/-- An event is no MEMW record. -/
theorem filterMap_written_events (l : List Instr) :
    (l.map fun i => Record.event (encode i)).filterMap Record.written = [] := by
  simp [Record.written]

namespace State.Received

variable {s t : State} {bytes : List Byte} {n : Nat}

theorem refl (s : State) : s.Received [] s where
  frame := by simp [Memory.writeAll, bytesFrom]
  records := ⟨[], by simp, rfl⟩

/-- Events, samples and changes of phase are progress with nothing received. -/
theorem log (h : s.Received bytes t) {l : List Record} (hl : l.filterMap Record.written = []) (p : Phase) (g : Stage)
    (c : Nat) (script : List Bit) (d : Nat) :
    s.Received bytes { t with
      hist := t.hist ++ l, phase := p, stage := g, ctr := c, sampleScript := script, draws := d } where
  frame := by rw [h.frame]
  records := by
    obtain ⟨new, hnew, hw⟩ := h.records
    exact ⟨new ++ l, by simp [hnew], by simp [hw, hl]⟩

/-- A sample is progress with nothing received, whatever is then done to `PHASE`, `STAGE` and `CTR`. -/
theorem sample (h : s.Received bytes t) (f : Flag) (p : Phase) (g : Stage) (c : Nat) :
    s.Received bytes { t.tookBit with
      hist := t.hist ++ [.event (encode (.sample t.tbus f t.drawBit))], phase := p, stage := g, ctr := c } := by
  rw [State.tookBit_frame]
  exact h.log rfl p g c _ _

/-- R_RXBYTE receives one more byte, where `TOFF` counts those before it (43_read.md R167). -/
theorem store (h : s.Received bytes t) (hoff : t.toff.toNat = bytes.length) :
    s.Received (bytes ++ [t.drawByte]) t.storedByte where
  frame := by
    have hmem : t.mem.write (t.tbuf + t.toff.toNat) t.drawByte =
        s.mem.writeAll (bytesFrom s.tbuf (bytes ++ [t.drawByte])) := by
      rw [Memory.writeAll_concat, hoff, h.frame]
    have hone : BitVec.ofNat 8 (bytes ++ [t.drawByte]).length = BitVec.ofNat 8 bytes.length + 1 := by
      simp [BitVec.ofNat_add]
    rw [← hmem, hone, ← BitVec.add_assoc, ← BitVec.sub_sub]
    unfold State.storedByte
    rw [State.tookByte_frame, h.frame]
  records := by
    obtain ⟨new, hnew, hw⟩ := h.records
    have htbuf : t.tbuf = s.tbuf := by rw [h.frame]
    refine ⟨new ++ [.event (encode (.rx t.tbus t.drawByte)), .memw (t.tbuf + t.toff.toNat) t.drawByte], ?_, ?_⟩
    · simp [State.storedByte, hnew]
    · rw [List.filterMap_append, hw, hoff, htbuf, bytesFrom_concat]
      rfl

/-- `Complete(ok)` with the count at `e`, in either of the two ways an operation ends. -/
theorem ends (h : s.Received bytes t) {ok : Bit} {e : Nat}
    (hend : bytes.length = n ∧ e = s.errcnt ∧ ok = 1 ∨
      bytes.length ≤ n ∧ e = (s.errcnt + 1) % 2 ^ s.cfg.errWidth ∧ ok = 0) :
    s.Ends n bytes (({ t with errcnt := e } : State).complete ok) where
  phase := rfl
  curdev := by rw [h.frame]; rfl
  buses := by rw [h.frame]; rfl
  refused := by rw [h.frame]; rfl
  mem := by rw [h.frame]; rfl
  records := h.records
  outcome := by
    rw [h.frame]
    exact hend.imp (fun ⟨hl, he, hok⟩ => ⟨hl, he, hok ▸ rfl⟩) fun ⟨hl, he, hok⟩ => ⟨hl, he, hok ▸ rfl⟩

theorem complete (h : s.Received bytes t) (hn : bytes.length = n) : s.Ends n bytes (t.complete 1) :=
  h.ends (.inl ⟨hn, by rw [h.frame], rfl⟩)

theorem timeout (h : s.Received bytes t) (hle : bytes.length ≤ n) : s.Ends n bytes t.timeout :=
  h.ends (.inr ⟨hle, by rw [h.frame], rfl⟩)

end State.Received

/-! ### One phase -/

/-- The operation of `s` stands at the ENTRY of `p` with `bytes` received. -/
structure State.At (s : State) (p : Phase) (bytes : List Byte) (t : State) : Prop extends s.Received bytes t where
  phase : t.phase = p
  stage : t.stage = .entry

/-- The phase after `n` received bytes: the receive loop while `TREM` is not 0 (30_encoding.md R80, rows 10 and 14). -/
def State.loopPhase (s : State) (n : Nat) : Phase := if s.trem - BitVec.ofNat 8 n = 0 then .rStop else .rRecv

/-- Within `k` steps from `t` the operation of `s`, on `n` bytes, ends. -/
def State.EndsWithin (s : State) (n k : Nat) (t : State) : Prop := State.Within k t fun u => ∃ bytes, s.Ends n bytes u

section
variable {s t : State} {p : Phase} {w : Wait} {bytes : List Byte} {n k : Nat}

theorem State.Received.step_eq (h : s.Received bytes t) (ha : s.agenda = []) : step t = t.controllerStep :=
  step_agenda_nil (by rw [h.frame]; exact ha)

/-- A wait polled from countdown `c + 1` times out or is left for its successor, in at most that many steps. -/
theorem State.Received.poll (ha : s.agenda = []) (hle : bytes.length ≤ n)
    (hnext : ∀ u, s.At w.successor bytes u → s.EndsWithin n k u) (c : Nat) (h : s.Received bytes t)
    (hw : waitOf t.phase = some w) (hs : t.stage = .poll) (hc : t.ctr = c + 1) : s.EndsWithin n (k + c + 1) t := by
  induction c generalizing t with
  | zero =>
    by_cases hv : t.drawBit = w.want
    · exact .ofStep ((h.step_eq ha).trans (State.controllerStep_satisfied hs hw hv))
        (hnext _ ⟨hv ▸ h.sample w.flag _ _ _, rfl, rfl⟩)
    · exact .ofStep ((h.step_eq ha).trans (State.controllerStep_expire hs hw rfl hv hc))
        (.now _ ⟨bytes, (h.sample w.flag _ _ _).timeout hle⟩)
  | succ c ih =>
    by_cases hv : t.drawBit = w.want
    · exact .ofStep ((h.step_eq ha).trans (State.controllerStep_satisfied hs hw hv))
        ((hnext _ ⟨hv ▸ h.sample w.flag _ _ _, rfl, rfl⟩).mono (by omega))
    · exact .ofStep ((h.step_eq ha).trans (State.controllerStep_again hs hw rfl hv (by omega)))
        (ih (h.sample w.flag _ _ _) (by simpa using hw) (by simpa using hs) (by simp [hc]))

/-- A waiting phase takes one step more than its budget at most (40_timer.md R113). -/
theorem State.At.wait (h : s.At p bytes t) (hw : waitOf p = some w) (ha : s.agenda = []) (hcfg : 1 ≤ s.cfg.shortBudget)
    (hle : bytes.length ≤ n) (hnext : ∀ u, s.At w.successor bytes u → s.EndsWithin n k u) :
    s.EndsWithin n (k + Params.budget s.cfg w.budget + 1) t := by
  have hwt : waitOf t.phase = some w := h.phase.symm ▸ hw
  have hbudget : Params.budget t.cfg w.budget = Params.budget s.cfg w.budget := by rw [h.frame]
  obtain ⟨c, hc⟩ := Nat.exists_eq_add_of_le' (budget_pos hcfg w.budget)
  refine .ofStep ((h.step_eq ha).trans (State.controllerStep_arm h.stage hwt)) ?_
  rw [hc]
  exact (h.log (filterMap_written_events _) _ _ _ _ _).poll ha hle hnext c hwt rfl (hbudget.trans hc)

/-- W_CLRSTOP and R_CLRSTOP end the operation in one step, with all bytes received. -/
theorem State.At.finish (h : s.At p bytes t) (hp : p = .wClrstop ∨ p = .rClrstop) (ha : s.agenda = [])
    (hn : bytes.length = n) : s.EndsWithin n 1 t :=
  .ofStep ((h.step_eq ha).trans (State.controllerStep_finish h.stage (h.phase.symm ▸ hp)))
    (.now 0 ⟨bytes, (h.log (filterMap_written_events _) _ _ _ _ _).complete hn⟩)

/-- The receive loop goes on or is left. -/
theorem State.Received.nextReceive (h : s.Received bytes t) : s.At (s.loopPhase bytes.length) bytes t.nextReceive where
  toReceived := by simpa [State.nextReceive] using h.log (l := []) rfl _ _ _ _ _
  phase := by
    have htrem : t.trem = s.trem - BitVec.ofNat 8 bytes.length := by rw [h.frame]
    rw [State.nextReceive, htrem, State.loopPhase]
  stage := rfl

/-- R_READCFG takes one step, into the receive loop or past it. -/
theorem State.At.burst (h : s.At .rReadcfg bytes t) (ha : s.agenda = [])
    (hnext : ∀ u, s.At (s.loopPhase bytes.length) bytes u → s.EndsWithin n k u) : s.EndsWithin n (k + 1) t :=
  .ofStep ((h.step_eq ha).trans (State.controllerStep_burst h.stage h.phase))
    (hnext _ (h.log (filterMap_written_events _) _ _ _ _ _).nextReceive)

/-- R_RXBYTE takes one step, with one more byte stored. -/
theorem State.At.receive (h : s.At .rRxbyte bytes t) (ha : s.agenda = []) (hoff : s.toff = 0) (hlt : bytes.length < 256)
     (haddr : s.tbuf + bytes.length < 2 ^ s.cfg.addrWidth)
    (hnext : ∀ v u, s.At (s.loopPhase (bytes ++ [v]).length) (bytes ++ [v]) u → s.EndsWithin n k u) :
    s.EndsWithin n (k + 1) t := by
  have hcount : t.toff.toNat = bytes.length := by
    rw [h.frame, hoff]
    simpa using hlt
  have hspace : t.tbuf + t.toff.toNat < 2 ^ t.cfg.addrWidth := by
    rw [hcount, h.frame]
    exact haddr
  exact .ofStep ((h.step_eq ha).trans (State.controllerStep_receive h.stage h.phase hspace))
    (hnext t.drawByte _ (h.store hcount).nextReceive)

end

/-! ### The write -/

/-- Settles O43: five waits with `LONG_BUDGET` each, then W_CLRSTOP. -/
theorem writeEndsWithinBound : Obligations.WriteEndsWithinBound := by
  intro s hp hs ha hcfg
  have hclrstop : ∀ t, s.At .wClrstop [] t → s.EndsWithin 0 1 t := fun t h => h.finish (.inl rfl) ha rfl
  have hdata := fun t (h : s.At .wData [] t) => h.wait rfl ha hcfg le_rfl hclrstop
  have hdatacfg := fun t (h : s.At .wDatacfg [] t) => h.wait rfl ha hcfg le_rfl hdata
  have hreg := fun t (h : s.At .wReg [] t) => h.wait rfl ha hcfg le_rfl hdatacfg
  have haddr := fun t (h : s.At .wAddr [] t) => h.wait rfl ha hcfg le_rfl hreg
  have hbusfree : s.At .wBusfree [] s := ⟨.refl s, hp, hs⟩
  obtain ⟨k, t, hk, hrun, bytes, hend⟩ := hbusfree.wait rfl ha hcfg le_rfl haddr
  obtain rfl : bytes = [] := by
    rcases hend.outcome with ⟨hl, -⟩ | ⟨hl, -⟩ <;> simpa using hl
  have hbound : k ≤ 6 + 5 * (10 * s.cfg.shortBudget) := by
    simp only [Params.budget, Params.longBudget] at hk
    omega
  exact ⟨k, t, hbound, hrun, hend.phase, hend.mem, hend.curdev, hend.buses, hend.refused,
    hend.outcome.imp And.right And.right⟩

/-! ### The read -/

section
variable {s : State} (ha : s.agenda = []) (hcfg : 1 ≤ s.cfg.shortBudget) (hoff : s.toff = 0) (hrem : s.trem = s.tlen)
  (hspace : s.tbuf + s.tlen.toNat ≤ 2 ^ s.cfg.addrWidth)
include hrem

/-- The loop is left when all bytes are received (43_read.md R167). -/
theorem State.loopPhase_eq {n : Nat} (hn : n ≤ s.tlen.toNat) :
    s.loopPhase n = if n = s.tlen.toNat then .rStop else .rRecv := by
  have hzero : s.trem - BitVec.ofNat 8 n = 0 ↔ n = s.tlen.toNat := by
    rw [hrem]
    bv_omega
  simp only [State.loopPhase, hzero]

include ha hcfg hoff hspace

/-- From the receive loop with `left` bytes to come: two steps and `SHORT_BUDGET` for each, then R_STOP and R_CLRSTOP. -/
theorem readLoop_endsWithin (left : Nat) {bytes : List Byte} {t : State} (hleft : bytes.length + left = s.tlen.toNat)
    (h : s.At (s.loopPhase bytes.length) bytes t) :
    s.EndsWithin s.tlen.toNat (2 + 10 * s.cfg.shortBudget + left * (2 + s.cfg.shortBudget)) t := by
  induction left generalizing bytes t with
  | zero =>
    have hall : bytes.length = s.tlen.toNat := hleft
    rw [State.loopPhase_eq hrem hall.le, if_pos hall] at h
    refine (h.wait rfl ha hcfg hall.le fun u hu => hu.finish (.inr rfl) ha hall).mono ?_
    simp only [Params.budget, Params.longBudget]
    omega
  | succ left ih =>
    rw [State.loopPhase_eq hrem (by omega), if_neg (by omega)] at h
    have hbyte := fun u (hu : s.At .rRxbyte bytes u) => hu.receive ha hoff (by omega) (by omega)
      fun v x hx => ih (by simp; omega) hx
    refine (h.wait rfl ha hcfg (by omega) hbyte).mono ?_
    simp only [Params.budget, Nat.succ_mul]
    omega

end

/-- Settles O44: three waits up to R_READCFG, then the receive loop from no byte received. -/
theorem readEndsWithinBound : Obligations.ReadEndsWithinBound := by
  intro s hp hs ha hcfg hwf hoff hrem hspace
  have hloop := fun t (h : s.At (s.loopPhase 0) [] t) =>
    readLoop_endsWithin ha hcfg hoff hrem hspace s.tlen.toNat (bytes := []) (Nat.zero_add _) h
  have hreadcfg := fun t (h : s.At .rReadcfg [] t) => h.burst ha hloop
  have hreg := fun t (h : s.At .rReg [] t) => h.wait rfl ha hcfg (Nat.zero_le _) hreadcfg
  have haddr := fun t (h : s.At .rAddr [] t) => h.wait rfl ha hcfg (Nat.zero_le _) hreg
  have hbusfree : s.At .rBusfree [] s := ⟨.refl s, hp, hs⟩
  obtain ⟨k, t, hk, hrun, bytes, hend⟩ := hbusfree.wait rfl ha hcfg (Nat.zero_le _) haddr
  obtain ⟨new, hnew, hrecords⟩ := hend.records
  have hbound : k ≤ 6 + 2 * s.tlen.toNat + 2 * (10 * s.cfg.shortBudget) + 2 * s.cfg.readSetupBudget +
      s.tlen.toNat * s.cfg.shortBudget := by
    simp only [Params.budget, Params.longBudget, Nat.mul_add] at hk
    omega
  refine ⟨k, t, bytes, new, hbound, hrun, hend.phase, hend.curdev, hend.buses, hend.refused, hnew, hrecords,
    fun i hi => ?_, fun a haway => ?_, hend.outcome⟩
  · rw [hend.mem]
    exact Memory.read_writeAll hwf s.tbuf bytes hi
  · rw [hend.mem]
    exact Memory.read_writeAll_other s.mem haway

end Sys2Proof.Machine
end
section
/-! The bus interface: event words, event instructions and draws. -/

namespace Sys2Proof.Machine

/-- Settles O2: the encoder is evaluated on the nine instructions, and decoding its words is the round trip. -/
theorem eventWordExamples : Obligations.EventWordExamples := by
  intro p hp
  have hword : encode p.1 = p.2 ∧ p.1.isCommand = false := by
    revert p
    decide
  obtain ⟨he, hc⟩ := hword
  exact ⟨he, decodeEvent_eq_ok.mpr ⟨hc, he⟩, decode_eq_ok.mpr he⟩

/-- Settles O21: each of the six is an event instruction, so `exec_event` says what it does. -/
theorem busEventsComplete : Obligations.BusEventsComplete :=
  fun _ _ _ _ _ _ _ _ _ _ _ =>
    ⟨exec_event rfl, exec_event rfl, exec_event rfl, exec_event rfl, exec_event rfl, exec_event rfl⟩

/-- Settles O54: the next state is the one `exec_event` names, with one more item in the history. -/
theorem frameOfBusEvents : Obligations.FrameOfBusEvents := by
  intro i s t hi h
  obtain rfl : s.log (.event (encode i)) = t := by
    rw [exec_event hi] at h
    exact Host.Outcome.next.inj h
  exact ⟨rfl, List.length_append, List.take_left, fun _ => rfl⟩

/-- Settles O58: what each kind of draw answers and uses up, with script left and without. -/
theorem drawsFollowScript : Obligations.DrawsFollowScript :=
  fun _ =>
    ⟨fun _ _ h => ⟨State.drawBit_script h, State.tookBit_script h⟩,
      fun h => ⟨State.drawBit_free h, State.tookBit_free h⟩,
      fun _ _ h => ⟨State.drawByte_script h, State.tookByte_script h⟩,
      fun h => ⟨State.drawByte_free h, State.tookByte_free h⟩⟩

end Sys2Proof.Machine
end

section
/-! The acceptance of a transaction (42_write.md R140, R141): what an accepted write loads, what the commands of a transaction
leave alone, and `CURDEV` as the device of WRITEC and READC. -/

namespace Sys2Proof.Machine

/-! ### WRITE and WRITEC -/

/-- The address byte is the device address shifted left by one, with no bit lost (30_encoding.md R74). -/
theorem saddrOf_toNat (a : Addr7) : (saddrOf a).toNat = 2 * a.toNat := by
  simp only [saddrOf, BitVec.toNat_shiftLeft, BitVec.toNat_setWidth, Nat.shiftLeft_eq]
  omega

theorem State.acceptWrite_of_checkBus {s : State} {d : DevId} {b : BusId} (a : Addr7) (r v : Byte)
    (h : s.checkBus d = .ok b) : s.acceptWrite d a r v = { s.loadTransaction b a r .wBusfree with tdata := v } := by
  rw [State.acceptWrite, h]

/-- WRITEC is WRITE on `CURDEV` in every state, refusals included (42_write.md R141). -/
theorem exec_writec (a : Addr7) (r v : Byte) (s : State) : exec (.writec a r v) s = exec (.write s.curdev a r v) s := rfl

/-- READC is READ on `CURDEV` in every state, refusals included (43_read.md R161). -/
theorem exec_readc (a : Addr7) (r l : Byte) (s : State) : exec (.readc a r l) s = exec (.read s.curdev a r l) s := rfl

/-- Settles O17: no check objects, so `loadTransaction` writes the registers, and `tdata` holds the data. -/
theorem writeCompletes : Obligations.WriteCompletes := by
  intro s d a r v b hp hd hb
  have haccept := State.acceptWrite_of_checkBus a r v (State.checkBus_ok.mpr ⟨hp, hd, hb⟩)
  exact ⟨_, congrArg Host.Outcome.next haccept, rfl, saddrOf_toNat a⟩

/-- Settles O18: WRITE on the device that `CURDEV` names. -/
theorem writecCompletes : Obligations.WritecCompletes := by
  intro s a r v b hp hd hb
  rw [exec_writec]
  exact writeCompletes s s.curdev a r v b hp hd hb

/-! ### Frame -/

theorem Instr.isCommand_of_isTransaction {i : Instr} (h : i.isTransaction = true) : i.isCommand = true := by
  cases i with
  | write | writec | read | readc => rfl
  | _ => cases h

/-- A change of one caller's port leaves every other port as it was. -/
theorem State.callers_modify_ne {s t : State} {c k : Nat} {f : CallerPort → CallerPort}
    (h : t.callers = s.callers.modify k f) (hc : c ≠ k) : t.callers[c]? = s.callers[c]? := by
  rw [h, List.getElem?_modify_ne _ _ hc.symm]

/-- Settles O52: each of the four is refused, which sets the mark, or accepted, which loads the registers of its direction. -/
theorem frameOfTransactionCommands : Obligations.FrameOfTransactionCommands := by
  intro i s t hi h
  have hmem : ∀ a, t.mem.read a = s.mem.read a := fun a => by rw [exec_mem h]
  rcases exec_cases h with ⟨e, -, rfl⟩ | ⟨d, b, rfl, -, -⟩ | ⟨d, a, r, v, b, hw, -, rfl⟩ |
    ⟨d, a, r, l, b, hr, -, rfl⟩ | ⟨rfl, -⟩ | ⟨hc, -⟩
  · rw [State.refuse_eq] at hmem ⊢
    exact ⟨rfl, fun _ _ => rfl, fun _ => ⟨rfl, rfl, rfl, rfl, rfl⟩, fun _ => rfl, hmem⟩
  · cases hi
  · have hwrite : i.readLength = none := by rcases hw with rfl | ⟨rfl, -⟩ <;> rfl
    exact ⟨rfl, fun c hc => State.callers_modify_ne rfl hc, fun _ => ⟨rfl, rfl, rfl, rfl, rfl⟩,
      fun hread => absurd hwrite hread, hmem⟩
  · have hread : i.readLength = some l := by rcases hr with rfl | ⟨rfl, -⟩ <;> rfl
    exact ⟨rfl, fun c hc => State.callers_modify_ne rfl hc, fun hwrite => absurd hread (by simp [hwrite]),
      fun _ => rfl, hmem⟩
  · cases hi
  · exact absurd (Instr.isCommand_of_isTransaction hi) (by simp [hc])

/-! ### `CURDEV` along a run -/

/-- An accepted INIT selects its device (44_registry_diag.md R192). -/
theorem exec_init_curdev {s t : State} {d : DevId} {b : BusId} (hp : s.phase = .idle)
    (hd : s.cfg.devmap[d.toNat]? = some b) (h : exec (.init d) s = .next t) : t.curdev = d := by
  have haccept : s.acceptInit d = s.initialise d b := by rw [State.acceptInit, State.checkDevice_ok.mpr ⟨hp, hd⟩]
  cases h
  rw [haccept]
  rfl

/-- No instruction writes the agenda. -/
theorem exec_agenda {i : Instr} {s t : State} (h : exec i s = .next t) : t.agenda = s.agenda := by
  rcases exec_cases h with ⟨e, -, rfl⟩ | ⟨d, b, -, -, rfl⟩ | ⟨d, a, r, v, b, -, -, rfl⟩ |
    ⟨d, a, r, l, b, -, -, rfl⟩ | ⟨-, rfl⟩ | ⟨-, rfl⟩
  case inl => exact State.refuse_agenda e s
  all_goals rfl

/-- A step uses up one turn, if one is left (log entry 5). -/
theorem step_agenda {s t : State} (h : step s = .next t) : t.agenda = s.agenda.tail := by
  rcases step_cases h with ⟨ha, hc⟩ | ⟨a, u, rfl, -, hturn⟩
  · have hkeep : t.agenda = s.agenda := by rw [(State.controllerStep_moves hc).frame]
    rw [hkeep, ha, List.tail_nil]
  rcases hturn with ⟨-, hc⟩ | rfl | ⟨c, w, buf, cap, i, -, -, -, he⟩ | ⟨c, w, buf, cap, e, -, -, -, rfl⟩ |
    ⟨c, -, rfl⟩ | ⟨c, addr, n, -, -, -, rfl⟩ | ⟨c, addr, v, -, -, -, rfl⟩ | ⟨w, i, -, -, he⟩
  · rw [(State.controllerStep_moves hc).frame]
  · rfl
  · exact exec_agenda he
  · exact State.refuse_agenda e _
  · rfl
  · rfl
  · rfl
  · exact exec_agenda he

/-- An INIT word has `OP` 1 (30_encoding.md R72). -/
theorem opOf_of_decodeCommand_init {w : Word} {d : DevId} (h : decodeCommand w = .ok (.init d)) : opOf w = 1 := by
  obtain ⟨hop, -⟩ := encode_eq_iff.mp (decodeCommand_eq_ok.mp h).2
  exact hop

/-- A step whose own turn issues no INIT leaves `CURDEV` alone (10_state.md R23). -/
theorem step_curdev {s t : State} (h : step s = .next t) (hno : ∀ x ∈ s.agenda.take 1, x.issuesInit = false) :
    t.curdev = s.curdev := by
  rcases step_registry h with ⟨hsame, -⟩ | ⟨-, ⟨c, w, buf, cap, rest, ha, hd⟩, -⟩
  · exact hsame
  · have hissues : (Turn.issue c w buf cap).issuesInit = true := decide_eq_true (opOf_of_decodeCommand_init hd)
    have := hno (.issue c w buf cap) (by simp [ha])
    rw [hissues] at this
    cases this

/-- `CURDEV` along a run whose turns issue no INIT. -/
theorem runSteps_curdev (n : Nat) {t u : State} (hno : ∀ x ∈ t.agenda.take n, x.issuesInit = false)
    (h : runSteps n t = .next u) : u.curdev = t.curdev := by
  induction n generalizing t with
  | zero => cases h; rfl
  | succ n ih =>
    obtain ⟨m, hstep, hrun⟩ := andThen_eq_next h
    have hfirst : ∀ x ∈ t.agenda.take 1, x.issuesInit = false :=
      fun x hx => hno x (List.take_subset_take_left _ (by omega) hx)
    have htail : m.agenda.take n = (t.agenda.take (n + 1)).tail := by
      rw [step_agenda hstep, List.tail_take_eq_take_tail, Nat.add_sub_cancel]
    have hrest : ∀ x ∈ m.agenda.take n, x.issuesInit = false :=
      fun x hx => hno x (List.mem_of_mem_tail (htail ▸ hx))
    exact (ih hrest hrun).trans (step_curdev hstep hfirst)

/-- Settles O26: `CURDEV` is `d` after the INIT and stays so, and the shorthands are the long forms on `CURDEV`. -/
theorem shorthandAfterInit : Obligations.ShorthandAfterInit := by
  intro s t u d b n a r v hp hd hinit hno hrun
  have hcur : u.curdev = d := (runSteps_curdev n hno hrun).trans (exec_init_curdev hp hd hinit)
  rw [exec_writec, exec_readc, hcur]
  exact ⟨rfl, rfl⟩

end Sys2Proof.Machine
end

section
/-! The write's phases: their ENTRY steps, their completion, and the run in which every wait is satisfied at once
(42_write.md R142 to R151). -/

namespace Sys2Proof.Machine

/-! ### The ENTRY steps -/

/-- ENTRY of a phase that waits with `LONG_BUDGET`, with the events of its entry action written out (40_timer.md R106, R107). -/
theorem State.controllerStep_armLong {s : State} {w : Wait} {l : List Instr} (hs : s.stage = .entry)
    (hw : waitOf s.phase = some w) (hlong : w.budget = .long) (hl : s.entryEvents = l) :
    s.controllerStep = .next { s with
      hist := s.hist ++ l.map fun i => .event (encode i)
      ctr := 10 * s.cfg.shortBudget, stage := .poll } := by
  rw [State.controllerStep_arm hs hw, hlong, State.entered, hl]
  rfl

/-- Settles O31: each phase is a row of the phase table, with its events. -/
theorem writeEntrySteps : Obligations.WriteEntrySteps := by
  intro s hs
  refine ⟨fun hp => ?_, fun hp => ?_, fun hp => ?_, fun hp => ?_, fun hp => ?_⟩
  · simpa using State.controllerStep_armLong hs (by rw [hp]; rfl) rfl (l := []) (by rw [State.entryEvents, hp])
  all_goals exact State.controllerStep_armLong hs (by rw [hp]; rfl) rfl (by rw [State.entryEvents, hp])

/-- Settles O33: CLRSTOP is the one entry event of both phases, and `Complete(1)` follows in the same step. -/
theorem clearStopCompletes : Obligations.ClearStopCompletes := by
  intro s hs hp
  have hevent : s.entryEvents = [.clrstop s.tbus] := by rcases hp with hp | hp <;> rw [State.entryEvents, hp]
  rw [State.controllerStep_finish hs hp, State.entered, hevent]
  rfl

/-! ### Every wait satisfied at its first sample -/

/-- `s` after the wait `w` of its phase was armed and satisfied by the first answer, with `rest` of the script left. -/
def State.passed (s : State) (w : Wait) (rest : List Bit) : State :=
  { s with
    sampleScript := rest
    hist := s.hist ++ (s.entryEvents ++ [Instr.sample s.tbus w.flag w.want]).map fun i => .event (encode i)
    ctr := Params.budget s.cfg w.budget
    phase := w.successor
    stage := .entry }

/-- A wait satisfied by the first answer takes two steps, whatever the run after them comes to. -/
theorem runSteps_pass {s : State} {w : Wait} {rest : List Bit} {n : Nat} {o : Out} (hw : waitOf s.phase = some w)
    (hs : s.stage = .entry) (ha : s.agenda = []) (hscript : s.sampleScript = w.want :: rest)
    (hrest : runSteps n (s.passed w rest) = o) : runSteps (n + 2) s = o := by
  have harm := (step_agenda_nil ha).trans (State.controllerStep_arm hs hw)
  have hsample := step_satisfied (s := { s.entered with ctr := Params.budget s.cfg w.budget, stage := .poll })
    rfl hw ha hscript
  rw [runSteps_of_step harm, runSteps_of_step hsample, ← hrest]
  simp [State.passed, State.entered]

/-- A run of one step from ENTRY of W_CLRSTOP or R_CLRSTOP with no turn to take. -/
theorem runSteps_clearStop {s : State} (hs : s.stage = .entry) (hp : s.phase = .wClrstop ∨ s.phase = .rClrstop)
    (ha : s.agenda = []) :
    runSteps 1 s = .next { s with
      hist := s.hist ++ [.event (encode (.clrstop s.tbus))]
      phase := .idle
      callers := s.callers.modify s.tcaller fun p => { p with response := some (.ok 1), rspOk := 1 } } :=
  runSteps_of_step ((step_agenda_nil ha).trans (clearStopCompletes s hs hp)) 0

/-- Settles O40: five waits of two steps each, then W_CLRSTOP. -/
theorem immediateWriteTrace : Obligations.ImmediateWriteTrace := by
  intro s rest hp hs ha hscript
  refine runSteps_pass (congrArg waitOf hp) hs ha hscript ?_
  iterate 4 refine runSteps_pass rfl rfl ha rfl ?_
  refine Eq.trans (runSteps_clearStop rfl (.inl rfl) ha) ?_
  simp [State.passed, State.entryEvents, hp, hs, Params.budget, Params.longBudget]

end Sys2Proof.Machine
end

section
/-! READ and READC: the acceptance of a read, and its refusal for length 0 (43_read.md R160, R161, R172). -/

namespace Sys2Proof.Machine

theorem State.acceptRead_of_checkRead {s : State} {d : DevId} {l : Byte} {b : BusId} (a : Addr7) (r : Byte)
    (h : s.checkRead d l = .ok b) :
    s.acceptRead d a r l = { s.loadTransaction b a r .rBusfree with
      tlen := l, toff := 0, trem := l, tbuf := s.cmdBuf, tcap := s.cmdCap } := by
  rw [State.acceptRead, h]

/-- Settles O19: no check objects, so `loadTransaction` and the buffer's registers are written. -/
theorem readCompletes : Obligations.ReadCompletes := by
  intro s d a r l b hp hd hb hlen hspace hcap
  have hpolicy : l = 0 → s.cfg.zeroLenPolicy = .source := fun hzero => hlen.resolve_left fun hne => hne hzero
  have haccept := State.acceptRead_of_checkRead a r (State.checkRead_ok.mpr ⟨hp, hd, hb, hpolicy, hspace, hcap⟩)
  exact ⟨_, congrArg Host.Outcome.next haccept, rfl, saddrOf_toNat a⟩

/-- Settles O20: READ on the device that `CURDEV` names. -/
theorem readcCompletes : Obligations.ReadcCompletes := by
  intro s a r l b hp hd hb hlen hspace hcap
  rw [exec_readc]
  exact readCompletes s s.curdev a r l b hp hd hb hlen hspace hcap

/-- Under `REFUSE` a read of length 0 on an initialised bus meets no earlier objection than its length. -/
theorem State.checkRead_zeroLength {s : State} {d : DevId} {b : BusId} (hbus : s.checkBus d = .ok b)
    (hpolicy : s.cfg.zeroLenPolicy = .refuse) : s.checkRead d 0 = .error .zeroLength := by
  simp [State.checkRead, hbus, hpolicy]

theorem exec_read_zeroLength {s : State} {d : DevId} {b : BusId} (a : Addr7) (r : Byte) (hbus : s.checkBus d = .ok b)
    (hpolicy : s.cfg.zeroLenPolicy = .refuse) :
    exec (.read d a r 0) s = .next { s with refused := some (s.refused.getD .zeroLength) } := by
  have haccept : s.acceptRead d a r 0 = s.refuse .zeroLength := by
    rw [State.acceptRead, State.checkRead_zeroLength hbus hpolicy]
  rw [← State.refuse_eq, ← haccept]
  rfl

end Sys2Proof.Machine
end

section
/-! The read's phases: their ENTRY steps, the receive loop, and the run in which every wait is satisfied at once
(43_read.md R162 to R175). -/

namespace Sys2Proof.Machine

/-! ### The ENTRY steps -/

/-- ENTRY of a waiting phase, with its budget and the events of its entry action written out (40_timer.md R106, R107). -/
theorem State.controllerStep_armBudget {s : State} {w : Wait} {n : Nat} {l : List Instr} (b : Budget)
    (hs : s.stage = .entry) (hw : waitOf s.phase = some w) (hb : w.budget = b) (hn : Params.budget s.cfg b = n)
    (hl : s.entryEvents = l) :
    s.controllerStep = .next { s with hist := s.hist ++ l.map fun i => .event (encode i), ctr := n, stage := .poll } := by
  rw [State.controllerStep_arm hs hw, hb, hn, State.entered, hl]

/-- Settles O32: each phase is a row of the phase table, with its budget and its events. -/
theorem readEntrySteps : Obligations.ReadEntrySteps := by
  intro s hs
  have hsetup := Params.readSetupBudget_eq s.cfg
  refine ⟨fun hp => ?_, fun hp => ?_, fun hp => ?_, fun hp => ?_⟩
  · rcases hp with hp | hp
    all_goals
      simpa using State.controllerStep_armLong hs (by rw [hp]; rfl) rfl (l := []) (by rw [State.entryEvents, hp])
  · exact State.controllerStep_armBudget .readSetup hs (by rw [hp]; rfl) rfl hsetup (by rw [State.entryEvents, hp])
  · exact State.controllerStep_armBudget .readSetup hs (by rw [hp]; rfl) rfl hsetup (by rw [State.entryEvents, hp])
  · simpa using State.controllerStep_armBudget .short hs (by rw [hp]; rfl) rfl (n := s.cfg.shortBudget) rfl
      (l := []) (by rw [State.entryEvents, hp])

/-- Settles O34: the repeated start is the one entry event, and `nextReceive` asks whether a byte is left. -/
theorem readStartsBurst : Obligations.ReadStartsBurst := by
  intro s hs hp
  have hevent : s.entryEvents = [.begin s.tbus .autoEnd 1 .r s.tlen s.tsaddr] := by rw [State.entryEvents, hp]
  have hphase : (if s.trem = 0 then Phase.rStop else .rRecv) = if s.trem.toNat > 0 then .rRecv else .rStop := by
    by_cases hzero : s.trem = 0
    · simp [hzero]
    · have hpos : 0 < s.trem.toNat := Nat.pos_of_ne_zero fun h => hzero (BitVec.eq_of_toNat_eq h)
      rw [if_neg hzero, if_pos hpos]
  rw [State.controllerStep_burst hs hp, State.nextReceive, State.entered, hevent, ← hphase]
  rfl

/-- R_RXBYTE beyond the address space (log entry 15). -/
theorem State.controllerStep_receive_outside {s : State} (hs : s.stage = .entry) (hp : s.phase = .rRxbyte)
    (ha : ¬ s.tbuf + s.toff.toNat < 2 ^ s.cfg.addrWidth) : s.controllerStep = .fault .addressOutsideMemory := by
  have haction : s.entryAction = .fault .addressOutsideMemory := by
    rw [State.entryAction, hp]
    exact State.receiveByte_outside ha
  rw [State.controllerStep_entry (by simp [hp]) hs, State.entryStep, haction, andThen_fault]

/-- Settles O35: inside the address space the step is `controllerStep_receive`, whose memory is one write. -/
theorem receivedByteIsStored : Obligations.ReceivedByteIsStored := by
  intro s hs hp hwf
  refine ⟨fun hinside => ?_, fun houtside => State.controllerStep_receive_outside hs hp (Nat.not_lt.mpr houtside)⟩
  refine ⟨_, State.controllerStep_receive hs hp hinside, ?_, ?_, ?_, ?_⟩
  · simp [State.nextReceive, State.storedByte, hs]
  · exact Memory.read_write_same _ _ hwf
  · exact fun a ha => Memory.read_write_other _ _ ha
  · exact Memory.write_wf _ _ hwf

/-! ### The receive loop with a byte ready at each first sample -/

theorem bytesFrom_cons (a : Nat) (v : Byte) (bytes : List Byte) :
    bytesFrom a (v :: bytes) = (a, v) :: bytesFrom (a + 1) bytes := by
  simp [bytesFrom, List.zipIdx_succ, Nat.add_comm, Nat.add_left_comm]

/-- What one turn of the receive loop adds to the history: RX_READY at once, the byte, and its place in memory
(43_read.md R175). -/
def receiveRecords (b : BusId) (c : Nat × Byte) : List Record :=
  [.event (encode (.sample b .rxReady 1)), .event (encode (.rx b c.2)), .memw c.1 c.2]

/-- `s` after one turn of the receive loop has stored `v` in R_RXBYTE, before the loop goes on or is left. -/
def State.receivedOne (s : State) (v : Byte) (bits : List Bit) (more : List Byte) : State :=
  { s with
    sampleScript := bits, rxScript := more
    hist := s.hist ++ receiveRecords s.tbus (s.tbuf + s.toff.toNat, v)
    mem := s.mem.write (s.tbuf + s.toff.toNat) v
    ctr := s.cfg.shortBudget, toff := s.toff + 1, trem := s.trem - 1
    phase := .rRxbyte, stage := .entry }

/-- `s` at the ENTRY of R_STOP, after the receive loop has stored `bytes`. -/
def State.receivedAll (s : State) (bytes : List Byte) (bits : List Bit) (more : List Byte) : State :=
  { s with
    sampleScript := bits, rxScript := more
    hist := s.hist ++ (bytesFrom (s.tbuf + s.toff.toNat) bytes).flatMap (receiveRecords s.tbus)
    mem := s.mem.writeAll (bytesFrom (s.tbuf + s.toff.toNat) bytes)
    ctr := if bytes = [] then s.ctr else s.cfg.shortBudget
    toff := s.toff + BitVec.ofNat 8 bytes.length, trem := 0
    phase := .rStop, stage := .entry }

section
variable {s : State} {bits : List Bit} {more : List Byte} {n : Nat} {o : Out}

/-- R_READCFG takes one step, into the receive loop or past it. -/
theorem runSteps_readcfg (hp : s.phase = .rReadcfg) (hs : s.stage = .entry) (ha : s.agenda = [])
    (hrest : runSteps n s.entered.nextReceive = o) : runSteps (n + 1) s = o := by
  rw [runSteps_of_step ((step_agenda_nil ha).trans (State.controllerStep_burst hs hp)), hrest]

/-- R_RXBYTE takes one step, with the byte that the script answers (43_read.md R167). -/
theorem runSteps_rxbyte {v : Byte} (hp : s.phase = .rRxbyte) (hs : s.stage = .entry) (ha : s.agenda = [])
    (haddr : s.tbuf + s.toff.toNat < 2 ^ s.cfg.addrWidth) (hrx : s.rxScript = v :: more)
    (hrest : runSteps n ({ s with
      rxScript := more
      mem := s.mem.write (s.tbuf + s.toff.toNat) v
      hist := s.hist ++ [.event (encode (.rx s.tbus v)), .memw (s.tbuf + s.toff.toNat) v]
      toff := s.toff + 1, trem := s.trem - 1 } : State).nextReceive = o) : runSteps (n + 1) s = o := by
  rw [runSteps_of_step ((step_agenda_nil ha).trans (State.controllerStep_receive hs hp haddr)), State.storedByte,
    State.drawByte_script hrx, State.tookByte_script hrx, hrest]

/-- One turn of the receive loop takes three steps. -/
theorem runSteps_receiveOne {v : Byte} (hrem : s.trem ≠ 0) (ha : s.agenda = [])
    (haddr : s.tbuf + s.toff.toNat < 2 ^ s.cfg.addrWidth) (hscript : s.sampleScript = 1 :: bits)
    (hrx : s.rxScript = v :: more) (hrest : runSteps n (s.receivedOne v bits more).nextReceive = o) :
    runSteps (n + 3) s.nextReceive = o := by
  have hloop : s.nextReceive = { s with phase := .rRecv, stage := .entry } := by rw [State.nextReceive, if_neg hrem]
  rw [hloop]
  refine runSteps_pass rfl rfl ha hscript ?_
  refine runSteps_rxbyte rfl rfl ha haddr hrx (Eq.trans ?_ hrest)
  congr 2
  simp [State.passed, State.receivedOne, State.entryEvents, receiveRecords, Params.budget]

theorem State.receivedAll_nil (s : State) (hrem : s.trem = 0) :
    s.receivedAll [] s.sampleScript s.rxScript = s.nextReceive := by
  simp [State.nextReceive, State.receivedAll, hrem, bytesFrom, Memory.writeAll]

theorem State.receivedAll_cons {v : Byte} {bytes : List Byte} {bits' : List Bit} {more' : List Byte}
    (hoff : s.toff.toNat + 1 < 256) :
    (s.receivedOne v bits' more').receivedAll bytes bits more = s.receivedAll (v :: bytes) bits more := by
  have hnext : s.tbuf + (s.toff + 1).toNat = s.tbuf + s.toff.toNat + 1 := by
    rw [BitVec.toNat_add_of_lt hoff]
    rfl
  have hcount : s.toff + 1 + BitVec.ofNat 8 bytes.length = s.toff + BitVec.ofNat 8 (v :: bytes).length := by
    rw [List.length_cons]
    bv_omega
  simp only [State.receivedAll, State.receivedOne, hnext, hcount, bytesFrom_cons]
  simp [Memory.writeAll]

/-- The receive loop with `bytes` to come takes three steps for each. -/
theorem runSteps_receiveAll {bytes : List Byte} (ha : s.agenda = []) (hlen : bytes.length = s.trem.toNat)
    (hoff : s.toff.toNat + bytes.length < 256)
    (hfit : ∀ i < bytes.length, s.tbuf + s.toff.toNat + i < 2 ^ s.cfg.addrWidth)
    (hscript : s.sampleScript = List.replicate bytes.length 1 ++ bits) (hrx : s.rxScript = bytes ++ more)
    (hrest : runSteps n (s.receivedAll bytes bits more) = o) :
    runSteps (n + 3 * bytes.length) s.nextReceive = o := by
  induction bytes generalizing s with
  | nil =>
    obtain rfl : s.sampleScript = bits := hscript
    obtain rfl : s.rxScript = more := hrx
    rw [← State.receivedAll_nil s (BitVec.eq_of_toNat_eq hlen.symm)]
    exact hrest
  | cons v bytes ih =>
    rw [List.length_cons] at hlen hoff hfit
    have hrem : s.trem ≠ 0 := fun h => by simp [h] at hlen
    have hleft : bytes.length = (s.trem - 1).toNat := by bv_omega
    have hnext : (s.toff + 1).toNat = s.toff.toNat + 1 := BitVec.toNat_add_of_lt (by simp; omega)
    have hoff' : (s.toff + 1).toNat + bytes.length < 256 := by omega
    have hfit' : ∀ i < bytes.length, s.tbuf + (s.toff + 1).toNat + i < 2 ^ s.cfg.addrWidth := fun i hi => by
      have := hfit (i + 1) (by omega)
      omega
    refine runSteps_receiveOne hrem ha (hfit 0 (by omega)) hscript hrx (ih ha hleft hoff' hfit' rfl rfl ?_)
    rw [State.receivedAll_cons (by omega)]
    exact hrest

end

/-! ### Every wait satisfied at its first sample -/

/-- The events of a read up to its receive loop (43_read.md R175). -/
def State.readSetupEvents (s : State) : List Instr :=
  [.sample s.tbus .busBusy 0, .begin s.tbus .softEnd 1 .w 1 s.tsaddr, .sample s.tbus .txReady 1, .tx s.tbus s.treg,
    .sample s.tbus .tc 1, .begin s.tbus .autoEnd 1 .r s.tlen s.tsaddr]

/-- The read with immediate answers, of any length, 0 included: three waits and R_READCFG, the receive loop, then R_STOP
and R_CLRSTOP. -/
theorem runSteps_immediateRead {s : State} {bytes more : List Byte} {bits : List Bit} (hp : s.phase = .rBusfree)
    (hs : s.stage = .entry) (ha : s.agenda = []) (hlen : bytes.length = s.trem.toNat)
    (hoff : s.toff.toNat + bytes.length < 256)
    (hfit : ∀ i < bytes.length, s.tbuf + s.toff.toNat + i < 2 ^ s.cfg.addrWidth)
    (hscript : s.sampleScript = [0, 1, 1] ++ List.replicate bytes.length 1 ++ [1] ++ bits)
    (hrx : s.rxScript = bytes ++ more) :
    runSteps (10 + 3 * bytes.length) s = .next { s with
      sampleScript := bits, rxScript := more
      hist := s.hist ++ s.readSetupEvents.map (fun i => .event (encode i)) ++
        (bytesFrom (s.tbuf + s.toff.toNat) bytes).flatMap (receiveRecords s.tbus) ++
        [.event (encode (.sample s.tbus .stop 1)), .event (encode (.clrstop s.tbus))]
      mem := s.mem.writeAll (bytesFrom (s.tbuf + s.toff.toNat) bytes)
      toff := s.toff + BitVec.ofNat 8 bytes.length, trem := 0
      ctr := 10 * s.cfg.shortBudget
      phase := .idle
      callers := s.callers.modify s.tcaller fun p => { p with response := some (.ok 1), rspOk := 1 } } := by
  have hsteps : 10 + 3 * bytes.length = 3 + 3 * bytes.length + 1 + 2 + 2 + 2 := by omega
  rw [List.append_assoc, List.append_assoc] at hscript
  rw [hsteps]
  refine runSteps_pass (congrArg waitOf hp) hs ha hscript ?_
  iterate 2 refine runSteps_pass rfl rfl ha rfl ?_
  refine runSteps_readcfg rfl rfl ha ?_
  refine runSteps_receiveAll ha hlen hoff hfit rfl hrx ?_
  refine runSteps_pass rfl rfl ha rfl (Eq.trans (runSteps_clearStop rfl (.inr rfl) ha) ?_)
  simp [State.receivedAll, State.entered, State.passed, State.entryEvents, State.readSetupEvents, hp, hs, Params.budget,
    Params.longBudget]

/-- Settles O41: `runSteps_immediateRead` with the buffer at `TBUF`, whose bytes `Memory.read_writeAll` reads back. -/
theorem immediateReadTrace : Obligations.ImmediateReadTrace := by
  intro s bytes bits more hp hs ha hwf hlen _ hoff hrem hspace hscript hrx
  have hbase : s.tbuf + s.toff.toNat = s.tbuf := by rw [hoff]; rfl
  have hcount : s.toff.toNat + bytes.length < 256 := by
    rw [hoff, hlen]
    simpa using s.tlen.isLt
  have hfit : ∀ i < bytes.length, s.tbuf + s.toff.toNat + i < 2 ^ s.cfg.addrWidth := fun i hi => by omega
  have hrun := runSteps_immediateRead hp hs ha (by rw [hlen, hrem]) hcount hfit hscript hrx
  rw [hbase] at hrun
  refine ⟨_, hrun, ?_, fun i hi => Memory.read_writeAll hwf s.tbuf bytes hi,
    fun a haway => Memory.read_writeAll_other s.mem haway, rfl, rfl, rfl, rfl, rfl⟩
  simp [State.readSetupEvents, bytesFrom, List.flatMap_map, receiveRecords]

/-- Settles O42: the refusal is `exec_read_zeroLength`, and the run is `runSteps_immediateRead` with no byte. -/
theorem zeroLengthRead : Obligations.ZeroLengthRead := by
  refine ⟨fun s d a r b hp hd hb hpolicy => ?_, fun s a r b hp hd hb hpolicy => ?_,
    fun s rest hp hs ha hlen hrem hscript => ?_⟩
  · exact exec_read_zeroLength a r (State.checkBus_ok.mpr ⟨hp, hd, hb⟩) hpolicy
  · rw [exec_readc]
    exact exec_read_zeroLength a r (State.checkBus_ok.mpr ⟨hp, hd, hb⟩) hpolicy
  · have hrun := runSteps_immediateRead (bytes := []) (more := s.rxScript) hp hs ha (by rw [hrem]; rfl)
      s.toff.isLt (by simp) hscript rfl
    refine ⟨_, hrun, ?_, rfl, rfl, rfl⟩
    simp [State.readSetupEvents, hlen, bytesFrom]

end Sys2Proof.Machine
end

section
/-! INIT and GETERR: the acceptance of an INIT, GETERR in every state, and the frame of both (44_registry_diag.md R191, R192,
R195). -/

namespace Sys2Proof.Machine

/-! ### INIT -/

theorem State.overclock_of_getElem? {s : State} {b : BusId} {o : Bit} (h : s.cfg.overclock[b.toNat]? = some o) :
    s.overclock b = o := by
  rw [State.overclock, h]

/-- An executed INIT initialises the bus of a known device while no operation is in flight; any other only sets the mark. -/
theorem exec_init_cases {d : DevId} {s t : State} (h : exec (.init d) s = .next t) :
    (∃ b, s.checkDevice d = .ok b ∧ t = s.initialise d b) ∨ ∃ e, s.checkDevice d = .error e ∧ t = s.refuse e := by
  cases h
  exact s.acceptInit_cases d

theorem exec_init_of_checkDevice {s : State} {d : DevId} {b : BusId} (h : s.checkDevice d = .ok b) :
    exec (.init d) s = .next (s.initialise d b) := by
  have haccept : s.acceptInit d = s.initialise d b := by rw [State.acceptInit, h]
  exact congrArg Host.Outcome.next haccept

/-- Settles O15: no check objects, so `initialise` sets the one BusHandle and leaves the others. -/
theorem initCompletes : Obligations.InitCompletes := by
  intro s d b o h hp hd ho hb
  have hover : s.overclock b = o := State.overclock_of_getElem? ho
  have hlt : b.toNat < s.buses.length := (List.getElem?_eq_some_iff.mp hb).1
  refine ⟨s.initialise d b, exec_init_of_checkDevice (State.checkDevice_ok.mpr ⟨hp, hd⟩), ?_, ?_, fun n hn => ?_, ?_⟩
  · rw [← hover]; rfl
  · simp [hlt, State.timingFor, hover]
  · simp [hn.symm]
  · simp

/-! ### GETERR -/

/-- GETERR's word is the one encoding of GETERR (30_encoding.md R72, R76). -/
theorem decodeCommand_eq_geterr {w : Word} : decodeCommand w = .ok .geterr ↔ w = 0x60000000 := by
  have hword : encode .geterr = 0x60000000 := by decide
  rw [decodeCommand_eq_ok, hword, eq_comm (a := w)]
  exact and_iff_right rfl

/-- Settles O16: GETERR has no check, and its word is its encoding. -/
theorem geterrCompletes : Obligations.GeterrCompletes :=
  ⟨fun _ => rfl, fun _ => decodeCommand_eq_geterr⟩

/-! ### Frame -/

/-- Settles O53: an INIT is refused, which sets the mark, or `initialise`s its own bus; GETERR changes one port. -/
theorem frameOfInitAndGeterr : Obligations.FrameOfInitAndGeterr := by
  refine ⟨fun d s t h => ?_, fun s t h => ?_⟩
  · rcases exec_init_cases h with ⟨b, hd, rfl⟩ | ⟨e, -, rfl⟩
    · obtain ⟨-, hdev⟩ := State.checkDevice_ok.mp hd
      refine ⟨rfl, fun c hc => State.callers_modify_ne rfl hc, fun b' hother => ?_, fun _ => rfl⟩
      have hne : b.toNat ≠ b'.toNat := fun he => hother (BitVec.eq_of_toNat_eq he ▸ hdev)
      simp [hne]
    · rw [State.refuse_eq]
      exact ⟨rfl, fun _ _ => rfl, fun _ _ => rfl, fun _ => rfl⟩
  · cases h
    exact ⟨rfl, fun c hc => State.callers_modify_ne rfl hc, fun _ => rfl⟩

end Sys2Proof.Machine
end

section
/-! GETERR next to a controller step (44_registry_diag.md R196): what each of the two leaves of what the other reads. -/

namespace Sys2Proof.Machine

/-! ### The controller's move -/

/-- A controller move answers the operation's caller on `RSP_OK`, or touches no port. -/
theorem State.Moves.callers {s t : State} (h : s.Moves t) :
    t.callers = s.callers ∨ ∃ v, t.callers = s.callers.modify s.tcaller (CallerPort.gotOk v) := by
  cases h with
  | rest | arm | burst => exact .inl rfl
  | finish => exact .inr ⟨1, rfl⟩
  | receive => exact .inl (by simp [State.nextReceive, State.storedByte])
  | satisfied | again => exact .inl (by simp)
  | expire => exact .inr ⟨0, by simp⟩

/-- A controller move keeps every caller's `RSP_VALUE`, and sets no caller to wait or free. -/
theorem State.Moves.port {s t : State} (h : s.Moves t) {c : Nat} {p : CallerPort} (hp : s.callers[c]? = some p) :
    ∃ q, t.callers[c]? = some q ∧ q.outstanding = p.outstanding ∧ q.rspValue = p.rspValue := by
  rcases h.callers with hsame | ⟨v, hanswer⟩
  · exact ⟨p, hsame ▸ hp, rfl, rfl⟩
  · rw [hanswer, List.getElem?_modify, hp]
    by_cases hc : s.tcaller = c
    · exact ⟨p.gotOk v, by simp [hc], rfl, rfl⟩
    · exact ⟨p, by simp [hc], rfl, rfl⟩

/-- A controller move leaves `ERRCNT`, or adds one to it modulo `2 ^ ERR_WIDTH` (44_registry_diag.md R197). -/
theorem State.Moves.errcnt {s t : State} (h : s.Moves t) :
    t.errcnt = s.errcnt ∨ t.errcnt = (s.errcnt + 1) % 2 ^ s.cfg.errWidth := by
  by_cases hsame : t.errcnt = s.errcnt
  · exact .inl hsame
  · obtain ⟨w, -, -, rfl⟩ := h.errcnt_changed hsame
    exact .inr (by simp)

/-- The controller's turn makes one of the controller's moves. -/
theorem moves_of_step_controller {s t : State} {rest : List Turn} (ha : s.agenda = .controller :: rest)
    (h : step s = .next t) : ({ s with agenda := rest }).Moves t :=
  State.controllerStep_moves ((step_agenda_cons ha).symm.trans h)

/-! ### GETERR's turn -/

/-- A free caller's GETERR turn gives it `ERRCNT`, whatever the side operands (30_encoding.md R73), and keeps the count, its
modulus and the turns to follow. -/
theorem step_geterr {s t : State} {c buf cap : Nat} {p : CallerPort} {rest : List Turn} (hp : s.callers[c]? = some p)
    (ho : p.outstanding = false) (ha : s.agenda = .issue c 0x60000000 buf cap :: rest) (h : step s = .next t) :
    t.callers[c]? = some (p.gotValue s.errcnt) ∧ t.errcnt = s.errcnt ∧ t.cfg = s.cfg ∧ t.agenda = rest := by
  rw [stepRunsIssuedCommand s c p _ buf cap rest .geterr ha hp ho (decodeCommand_eq_geterr.mpr rfl)] at h
  cases h
  exact ⟨by simp [hp], rfl, rfl, rfl⟩

/-! ### The two orders -/

theorem steps_of_runSteps_two {s t : State} (h : runSteps 2 s = .next t) : ∃ m, step s = .next m ∧ step m = .next t := by
  obtain ⟨m, hfirst, hrun⟩ := andThen_eq_next h
  obtain ⟨u, hsecond, hu⟩ := andThen_eq_next hrun
  cases hu
  exact ⟨m, hfirst, hsecond⟩

/-- GETERR before the controller's step: the count before that step, which the step then leaves or raises by one. -/
theorem geterr_then_controller {s t : State} {c buf cap : Nat} {p : CallerPort} {rest : List Turn}
    (hp : s.callers[c]? = some p) (ho : p.outstanding = false) (hrun : runSteps 2 s = .next t)
    (ha : s.agenda = .issue c 0x60000000 buf cap :: .controller :: rest) :
    (∃ q, t.callers[c]? = some q ∧ q.rspValue = s.errcnt) ∧
      (t.errcnt = s.errcnt ∨ t.errcnt = (s.errcnt + 1) % 2 ^ s.cfg.errWidth) := by
  obtain ⟨m, hfirst, hsecond⟩ := steps_of_runSteps_two hrun
  obtain ⟨hport, herr, hcfg, hagenda⟩ := step_geterr hp ho ha hfirst
  have hmove := moves_of_step_controller hagenda hsecond
  obtain ⟨q, hq, -, hvalue⟩ := hmove.port hport
  refine ⟨⟨q, hq, hvalue⟩, ?_⟩
  rw [← herr, ← hcfg]
  exact hmove.errcnt

/-- GETERR after the controller's step, which leaves its caller free: the count after that step. -/
theorem controller_then_geterr {s t : State} {c buf cap : Nat} {p : CallerPort} {rest : List Turn}
    (hp : s.callers[c]? = some p) (ho : p.outstanding = false) (hrun : runSteps 2 s = .next t)
    (ha : s.agenda = .controller :: .issue c 0x60000000 buf cap :: rest) :
    (∃ q, t.callers[c]? = some q ∧ q.rspValue = t.errcnt) ∧
      (t.errcnt = s.errcnt ∨ t.errcnt = (s.errcnt + 1) % 2 ^ s.cfg.errWidth) := by
  obtain ⟨m, hfirst, hsecond⟩ := steps_of_runSteps_two hrun
  have hmove := moves_of_step_controller ha hfirst
  have hagenda : m.agenda = .issue c 0x60000000 buf cap :: rest := by rw [step_agenda hfirst, ha, List.tail_cons]
  obtain ⟨q, hq, hfree, -⟩ := hmove.port hp
  obtain ⟨hport, herr, -, -⟩ := step_geterr hq (hfree.trans ho) hagenda hsecond
  refine ⟨⟨_, hport, herr.symm⟩, ?_⟩
  rw [herr]
  exact hmove.errcnt

/-- Settles O57: `geterr_then_controller` and `controller_then_geterr` are the two orders. -/
theorem geterrRacingTimeout : Obligations.GeterrRacingTimeout := by
  intro s t c p buf cap rest hp ho hrun
  refine ⟨fun ha => ?_, fun ha => ?_, fun ha => ?_⟩
  · exact (geterr_then_controller hp ho hrun ha).1
  · exact (controller_then_geterr hp ho hrun ha).1
  · rcases ha with ha | ha
    · exact (geterr_then_controller hp ho hrun ha).2
    · exact (controller_then_geterr hp ho hrun ha).2

end Sys2Proof.Machine
end

section
/-! Refusals: the reason a command's checks give is the first of its objections (60_exceptions.md R214, R215), the busy
machine (R221), and what the step that sets the mark leaves alone. -/

namespace Sys2Proof.Machine

/-! ### The checks and the objections -/

/-- The reason a check refuses with, none when it passes. -/
def reasonOf : Except RefuseReason BusId → Option RefuseReason
  | .ok _ => none
  | .error r => some r

/-- The first objection, as the first that holds of the five. -/
theorem State.head?_objections (s : State) (i : Instr) (d : DevId) :
    (s.objections i d).head? =
      ((((if s.phase ≠ .idle then some .busy else none).or
        (if s.cfg.numDevices ≤ d.toNat then some .unknownDevice else none)).or
        (if i.isTransaction = true ∧ s.busReady d = false then some .busUninit else none)).or
        (if i.readLength = some 0 ∧ s.cfg.zeroLenPolicy = .refuse then some .zeroLength else none)).or
        (if s.overlong i.readLength = true then some .buffer else none) := by
  simp only [State.objections, List.head?_append, apply_ite List.head?, List.head?_cons, List.head?_nil]

/-- Checks 3 and 4: busy, then unknown device. -/
theorem State.reasonOf_checkDevice (s : State) (d : DevId) :
    reasonOf (s.checkDevice d) =
      (if s.phase ≠ .idle then some .busy else none).or
        (if s.cfg.numDevices ≤ d.toNat then some .unknownDevice else none) := by
  unfold State.checkDevice State.busOf
  by_cases hp : s.phase = .idle
  · by_cases hd : s.cfg.numDevices ≤ d.toNat
    · simp [hp, hd, reasonOf]
    · have hlt : d.toNat < s.cfg.numDevices := Nat.lt_of_not_le hd
      simp [hp, hd, hlt, reasonOf]
  · simp [hp, reasonOf]

/-- Check 5 follows the checks of the device: its bus is initialised. -/
theorem State.reasonOf_checkBus (s : State) (d : DevId) :
    reasonOf (s.checkBus d) =
      (reasonOf (s.checkDevice d)).or (if s.busReady d = false then some .busUninit else none) := by
  cases h : s.checkDevice d with
  | ok b =>
    obtain ⟨-, hdev⟩ := State.checkDevice_ok.mp h
    have hready : s.busReady d = s.busInit b := by simp only [State.busReady, hdev]
    cases hb : s.busInit b <;> simp [State.checkBus, h, hready, hb, reasonOf]
  | error r => simp [State.checkBus, h, reasonOf]

/-- The buffer objection to a read is the failure of its buffer check (20_memory.md R52). -/
theorem State.overlong_some (s : State) (l : Byte) : s.overlong (some l) = !s.bufferFits l := by
  rw [State.bufferFits, State.addrSpace]
  simp only [State.overlong, Bool.not_and, ← decide_not, Nat.not_le]

/-- Checks 6 and 7 follow the checks of the bus: a length the policy admits, then a buffer that fits. -/
theorem State.reasonOf_checkRead (s : State) (d : DevId) (l : Byte) :
    reasonOf (s.checkRead d l) =
      ((reasonOf (s.checkBus d)).or (if l = 0 ∧ s.cfg.zeroLenPolicy = .refuse then some .zeroLength else none)).or
        (if s.overlong (some l) = true then some .buffer else none) := by
  rw [State.overlong_some]
  cases h : s.checkBus d with
  | ok b =>
    by_cases hl : l = 0 ∧ s.cfg.zeroLenPolicy = .refuse
    · simp [State.checkRead, h, hl, reasonOf]
    · simp only [State.checkRead, h, hl, if_false]
      cases s.bufferFits l <;> simp [reasonOf]
  | error r => simp [State.checkRead, h, reasonOf]

theorem State.head?_objections_init (s : State) (d e : DevId) :
    (s.objections (.init e) d).head? = reasonOf (s.checkDevice d) := by
  simp [State.head?_objections, State.reasonOf_checkDevice, Instr.isTransaction, Instr.readLength, State.overlong]

theorem State.head?_objections_write (s : State) {i : Instr} (d : DevId) (hi : i.isTransaction = true)
    (hl : i.readLength = none) : (s.objections i d).head? = reasonOf (s.checkBus d) := by
  simp [State.head?_objections, State.reasonOf_checkBus, State.reasonOf_checkDevice, hi, hl, State.overlong]

theorem State.head?_objections_read (s : State) {i : Instr} {l : Byte} (d : DevId) (hi : i.isTransaction = true)
    (hl : i.readLength = some l) : (s.objections i d).head? = reasonOf (s.checkRead d l) := by
  simp [State.head?_objections, State.reasonOf_checkRead, State.reasonOf_checkBus, State.reasonOf_checkDevice, hi, hl]

/-! ### Acceptance or the first objection -/

/-- `t` is what R214 and R215 make of the command `i` on device `d` in `s`: the refusal with the first objection, or, with no
objection, an accepted command and the mark as it was. -/
def State.Judges (s : State) (i : Instr) (d : DevId) (t : State) : Prop :=
  (∃ r, (s.objections i d).head? = some r ∧ t = s.refuse r) ∨
  ((s.objections i d).head? = none ∧ t.refused = s.refused ∧
    (i.isTransaction = true → t.phase ≠ .idle ∧ t.tcaller = s.cmdCaller) ∧ (i = .init d → t.curdev = d))

theorem State.acceptInit_judges (s : State) (d : DevId) : s.Judges (.init d) d (s.acceptInit d) := by
  unfold State.Judges
  rw [State.head?_objections_init]
  rcases s.acceptInit_cases d with ⟨b, hcheck, ht⟩ | ⟨r, hcheck, ht⟩ <;> rw [hcheck, ht]
  · exact .inr ⟨rfl, rfl, nofun, fun _ => rfl⟩
  · exact .inl ⟨r, rfl, rfl⟩

/-- A transaction is no INIT. -/
theorem Instr.ne_init_of_isTransaction {i : Instr} (hi : i.isTransaction = true) (d : DevId) : i ≠ .init d := by
  rintro rfl
  cases hi

theorem State.acceptWrite_judges (s : State) {i : Instr} (d : DevId) (a : Addr7) (reg v : Byte)
    (hi : i.isTransaction = true) (hl : i.readLength = none) : s.Judges i d (s.acceptWrite d a reg v) := by
  unfold State.Judges
  rw [State.head?_objections_write s d hi hl]
  rcases s.acceptWrite_cases d a reg v with ⟨b, hcheck, ht⟩ | ⟨r, hcheck, ht⟩ <;> rw [hcheck, ht]
  · exact .inr ⟨rfl, rfl, fun _ => ⟨Phase.noConfusion, rfl⟩, fun h => absurd h (Instr.ne_init_of_isTransaction hi d)⟩
  · exact .inl ⟨r, rfl, rfl⟩

theorem State.acceptRead_judges (s : State) {i : Instr} {l : Byte} (d : DevId) (a : Addr7) (reg : Byte)
    (hi : i.isTransaction = true) (hl : i.readLength = some l) : s.Judges i d (s.acceptRead d a reg l) := by
  unfold State.Judges
  rw [State.head?_objections_read s d hi hl]
  rcases s.acceptRead_cases d a reg l with ⟨b, hcheck, ht⟩ | ⟨r, hcheck, ht⟩ <;> rw [hcheck, ht]
  · exact .inr ⟨rfl, rfl, fun _ => ⟨Phase.noConfusion, rfl⟩, fun h => absurd h (Instr.ne_init_of_isTransaction hi d)⟩
  · exact .inl ⟨r, rfl, rfl⟩

/-- Every command with a device is judged by its objections, WRITEC and READC on `CURDEV`. -/
theorem exec_judges {i : Instr} {s : State} {d : DevId} (hd : s.deviceOf i = some d) :
    ∃ t, exec i s = .next t ∧ s.Judges i d t := by
  cases i with
  | init e => cases hd; exact ⟨_, rfl, s.acceptInit_judges d⟩
  | write _ a reg v | writec a reg v => cases hd; exact ⟨_, rfl, s.acceptWrite_judges _ a reg v rfl rfl⟩
  | read _ a reg l | readc a reg l => cases hd; exact ⟨_, rfl, s.acceptRead_judges _ a reg rfl rfl⟩
  | _ => cases hd

/-- Settles O22: `exec_judges`, with the refusal written as one record update. -/
theorem firstObjectionIsTheReason : Obligations.FirstObjectionIsTheReason := by
  intro i s d hd
  obtain ⟨t, hexec, hjudged⟩ := exec_judges hd
  rw [hexec]
  refine ⟨fun r l hobj => ?_, fun hobj => ?_⟩ <;>
    rcases hjudged with ⟨e, hfirst, ht⟩ | ⟨hnone, haccepted⟩
  · have he : r = e := by simpa [hobj] using hfirst
    rw [ht, ← he, State.refuse_eq]
  · simp [hobj] at hnone
  · simp [hobj] at hfirst
  · exact ⟨t, rfl, haccepted⟩

/-! ### Commands to a busy machine -/

theorem State.objections_busy {s : State} (hp : s.phase ≠ .idle) (i : Instr) (d : DevId) :
    ∃ l, s.objections i d = .busy :: l := by
  have hfirst : (s.objections i d).head? = some .busy := by simp [State.head?_objections, hp]
  exact List.head?_eq_some_iff.mp hfirst

/-- GETERR alone of the commands addresses no device. -/
theorem State.exists_deviceOf (s : State) {i : Instr} (hi : i.isCommand = true) (hne : i ≠ .geterr) :
    ∃ d, s.deviceOf i = some d := by
  cases i with
  | init | write | writec | read | readc => exact ⟨_, rfl⟩
  | geterr => exact absurd rfl hne
  | _ => cases hi

/-- Settles O25: to a busy machine `busy` is the first objection on any device, and GETERR has no check. -/
theorem busyRefusesAllButGeterr : Obligations.BusyRefusesAllButGeterr := by
  intro i s hp hi
  refine ⟨fun hne => ?_, ?_⟩
  · obtain ⟨d, hd⟩ := s.exists_deviceOf hi hne
    obtain ⟨l, hbusy⟩ := State.objections_busy hp i d
    exact (firstObjectionIsTheReason i s d hd).1 .busy l hbusy
  · rintro rfl
    exact ⟨_, rfl, rfl, rfl⟩

/-! ### The step that sets the mark -/

/-- A refusal that changes the mark finds it clear (10_state.md R33). -/
theorem State.refused_eq_none_of_refuse {s : State} {r : RefuseReason} (hne : (s.refuse r).refused ≠ s.refused) :
    s.refused = none := by
  rw [State.refuse_refused] at hne
  cases h : s.refused with
  | none => rfl
  | some e => simp [h] at hne

/-- An instruction that changes the mark is a refused command. -/
theorem exec_refuses {i : Instr} {s t : State} (h : exec i s = .next t) (hne : t.refused ≠ s.refused) :
    ∃ r, t = s.refuse r := by
  rcases exec_cases h with ⟨r, -, ht⟩ | ⟨d, b, -, -, rfl⟩ | ⟨d, a, r, v, b, -, -, rfl⟩ |
    ⟨d, a, r, l, b, -, -, rfl⟩ | ⟨-, rfl⟩ | ⟨-, rfl⟩
  case inl => exact ⟨r, ht⟩
  all_goals exact absurd rfl hne

/-- A step that changes the mark is an issue turn: its word or its command is refused in the state with the port latched. -/
theorem step_refuses {s t : State} (h : step s = .next t) (hne : t.refused ≠ s.refused) :
    ∃ c w buf cap r, t = (({ s with agenda := s.agenda.tail }).latchCommand c w buf cap).refuse r := by
  rcases step_cases h with ⟨-, hc⟩ | ⟨a, u, rfl, -, hturn⟩
  · exact absurd (by rw [(State.controllerStep_moves hc).frame]) hne
  rcases hturn with ⟨-, hc⟩ | rfl | ⟨c, w, buf, cap, i, -, -, -, he⟩ | ⟨c, w, buf, cap, e, -, -, -, ht⟩ |
    ⟨c, -, rfl⟩ | ⟨c, addr, n, -, -, -, rfl⟩ | ⟨c, addr, v, -, -, -, rfl⟩ | ⟨w, i, -, hd, he⟩
  · exact absurd (by rw [(State.controllerStep_moves hc).frame]) hne
  · exact absurd rfl hne
  · exact ⟨c, w, buf, cap, exec_refuses he hne⟩
  · exact ⟨c, w, buf, cap, e, ht⟩
  · exact absurd rfl hne
  · exact absurd rfl hne
  · exact absurd rfl hne
  · rw [exec_event (decodeEvent_isCommand hd)] at he
    cases he
    exact absurd rfl hne

/-- Settles O23: by `step_refuses` such a step latches the port and refuses. -/
theorem refusalChangesOnlyTheMark : Obligations.RefusalChangesOnlyTheMark := by
  intro s t h hne
  obtain ⟨c, w, buf, cap, r, rfl⟩ := step_refuses h hne
  have hclear := State.refused_eq_none_of_refuse hne
  refine ⟨hclear, ?_⟩
  rw [State.refuse_eq]
  rfl

end Sys2Proof.Machine
end
section
/-! The state after reset (70_reset_and_hazards.md R240 to R243): what each of its lists holds, and the statements about it. -/

namespace Sys2Proof.Machine

/-! ### The lists of BusHandles and of ports after reset -/

theorem State.eq_atReset_of_mem_resetWith_buses {cfg : Params} {h : BusHandle}
    (hmem : h ∈ (State.resetWith cfg).buses) : h = BusHandle.atReset :=
  List.eq_of_mem_replicate hmem

theorem State.eq_atReset_of_mem_resetWith_callers {cfg : Params} {p : CallerPort}
    (hmem : p ∈ (State.resetWith cfg).callers) : p = CallerPort.atReset :=
  List.eq_of_mem_replicate hmem

/-- No bus is initialised after reset (70_reset_and_hazards.md R240). -/
@[simp] theorem State.busInit_resetWith (cfg : Params) (b : BusId) : (State.resetWith cfg).busInit b = false := by
  refine Bool.eq_false_iff.mpr fun hinit => ?_
  obtain ⟨h, hb, hinited⟩ := State.busInit_iff.mp hinit
  rw [State.eq_atReset_of_mem_resetWith_buses (List.mem_of_getElem? hb)] at hinited
  cases hinited

/-- No caller waits for a response after reset (70_reset_and_hazards.md R240). -/
@[simp] theorem State.awaiting_resetWith (cfg : Params) (c : Nat) : (State.resetWith cfg).awaiting c = false := by
  refine Bool.eq_false_iff.mpr fun hwaits => ?_
  obtain ⟨p, hp, hout, -⟩ := State.awaiting_iff.mp hwaits
  rw [State.eq_atReset_of_mem_resetWith_callers (List.mem_of_getElem? hp)] at hout
  cases hout

/-! ### The configuration -/

/-- A well-formed configuration has a device (00_scope.md R7), so `CURDEV` = 0 is a known one. -/
theorem Params.numDevices_pos {p : Params} (h : p.wf = true) : 0 < p.numDevices := by
  simp only [Params.wf, Bool.and_eq_true, decide_eq_true_eq] at h
  omega

/-! ### The statements -/

/-- Settles O7: the registers by definition, the buses and the callers by what their lists hold. -/
theorem resetValues : Obligations.ResetValues := fun cfg =>
  ⟨rfl, rfl, rfl, rfl, rfl, State.busInit_resetWith cfg, State.awaiting_resetWith cfg⟩

/-- With `PHASE` = IDLE the clauses about an operation in flight ask nothing; the others bound values that are 0. -/
theorem State.Inv.resetWith {cfg : Params} (hcfg : cfg.wf = true) : (State.resetWith cfg).Inv where
  cfgOk := hcfg
  errcntFits := Nat.two_pow_pos _
  curdevKnown := Params.numDevices_pos hcfg
  busesSized := List.length_replicate
  profilesFit := fun _ hmem => State.eq_atReset_of_mem_resetWith_buses hmem ▸ Nat.two_pow_pos _
  callersSized := List.length_replicate
  valuesFit := fun _ hmem => State.eq_atReset_of_mem_resetWith_callers hmem ▸ Nat.two_pow_pos _
  memCanonical := rfl
  memInSpace := nofun
  cmdBufFits := Nat.two_pow_pos _
  flightBus := absurd rfl
  flightAddr := absurd rfl
  flightCaller := absurd rfl
  flightPoll := absurd rfl
  readCount := nofun
  readBuffer := nofun
  readLoop := nofun
  readEnd := nofun
  readStart := nofun
  waiters := fun c _ hwaits => absurd hwaits (by simp)

/-- Settles O8: `State.Inv.resetWith`, and the reference configuration is well-formed. -/
theorem resetMeetsInvariant : Obligations.ResetMeetsInvariant :=
  ⟨fun _ => State.Inv.resetWith, State.Inv.resetWith (by decide)⟩

/-- Settles O14: IDLE is the first branch of the controller's step. -/
theorem idleControllerWaits : Obligations.IdleControllerWaits := by
  intro s hidle
  rw [State.controllerStep, if_pos hidle]

end Sys2Proof.Machine
end
